-- ==== Sys2Proof/Word.lean ====
section
/-! DEFINITION. The plain data of the block: bytes, command words and the two lines. A tick count is a
`Nat`: the registers that hold one have `W` bits, and `W` is a parameter of the instance (00_scope.md R8), so that
a register's number stays below `2 ^ W` is an invariant of the step (log 3). -/

namespace Sys2Proof

/-- A decoded value: one byte (00_scope.md section 5, 20_memory.md R44). -/
abbrev Byte := BitVec 8

/-- A command word (30_encoding.md R64). -/
abbrev Command := BitVec 16

/-- The block's two lines (92_eei_decisions.md D10): `sel = 0` the sensor line, `sel = 1` the infrared
receiver line. -/
inductive Line where
  | sensor
  | receiver
  deriving DecidableEq, Repr

end Sys2Proof
end

