-- ==== Sys2Proof/Config.lean ====
section
/-! DEFINITION. The parameters of an instance (00_scope.md R8, R9) and the free values of the model. -/

namespace Sys2Proof

/-- The parameters of an instance with the constraints of 00_scope.md section 3, so that every `Config` is
a legal instance (log 1, log 2). `MAX_TICKS` is `Config.maxTicks`. `TICK_HZ` is carried and read by
nothing, as the spec says. -/
structure Config where
  /-- `W`: width of the tick counter and of every tick operand. -/
  w : Nat
  /-- `THRESH_DHT`: cutoff of the sensor protocol. -/
  threshDht : Nat
  /-- `THRESH_IR`: cutoff of the remote protocol. -/
  threshIr : Nat
  /-- `T_START_LOW`: ticks the sensor line is driven low. -/
  tStartLow : Nat
  /-- `T_START_HIGH`: ticks the sensor line is then held high. -/
  tStartHigh : Nat
  /-- `TICK_HZ`: no rule depends on it. -/
  tickHz : Nat
  w_pos : 1 ≤ w
  threshDht_lt : threshDht < 2 ^ w - 1
  threshIr_lt : threshIr < 2 ^ w - 1
  tStartLow_le : tStartLow ≤ 2 ^ w - 1
  tStartHigh_lt : tStartHigh < tStartLow
  tStartHigh_pos : 1 ≤ tStartHigh
  deriving DecidableEq, Repr

/-- `MAX_TICKS = 2^W − 1`, the counter's full scale (00_scope.md section 3). -/
def Config.maxTicks (c : Config) : Nat := 2 ^ c.w - 1

/-- `RW = max(W, 8)`, the width of `rsp_data` (30_encoding.md R60). -/
def Config.rw (c : Config) : Nat := max c.w 8

/-- Six unconstrained numbers from which an instance is built. -/
structure RawParams where
  w : Nat
  threshDht : Nat
  threshIr : Nat
  tStartLow : Nat
  tStartHigh : Nat
  tickHz : Nat
  deriving DecidableEq, Repr, Inhabited

theorem Config.four_le_pow (k : Nat) : 4 ≤ 2 ^ (k + 2) := by
  have := Nat.one_le_two_pow (n := k)
  rw [Nat.pow_add]; omega

theorem Config.low_le (m a : Nat) (h : 4 ≤ m) : a % (m - 2) + 2 ≤ m - 1 := by
  have := Nat.mod_lt a (show m - 2 > 0 by omega)
  omega

theorem Config.high_lt (a b : Nat) : b % (a + 1) + 1 < a + 2 := by
  have := Nat.mod_lt b (show a + 1 > 0 by omega)
  omega

/-- The legal instance built from six numbers. `W` is at least 2, because
`1 ≤ T_START_HIGH < T_START_LOW ≤ 2^W − 1` has no solution at `W = 1` (DEDUCED, log 2). Every legal
instance is `ofRaw` of some numbers (`Sys2Proof.Laws.config_ofRaw_surjective`). -/
def Config.ofRaw (r : RawParams) : Config :=
  { w := r.w + 2
    threshDht := r.threshDht % (2 ^ (r.w + 2) - 1)
    threshIr := r.threshIr % (2 ^ (r.w + 2) - 1)
    tStartLow := r.tStartLow % (2 ^ (r.w + 2) - 2) + 2
    tStartHigh := r.tStartHigh % (r.tStartLow % (2 ^ (r.w + 2) - 2) + 1) + 1
    tickHz := r.tickHz
    w_pos := Nat.le_add_left 1 (r.w + 1)
    threshDht_lt := Nat.mod_lt _ (by have := Config.four_le_pow r.w; omega)
    threshIr_lt := Nat.mod_lt _ (by have := Config.four_le_pow r.w; omega)
    tStartLow_le := Config.low_le _ _ (Config.four_le_pow r.w)
    tStartHigh_lt := Config.high_lt _ _
    tStartHigh_pos := Nat.le_add_left 1 _ }

/-- The free choice of the parameters: the spec gives no number for any of them and "none has a default
that a proof may rely on" (00_scope.md section 3, 93_implementation_defined.md U12; log 2). -/
opaque Config.raw : RawParams

/-- The instance of `State.reset`: legal, and otherwise unknown. -/
def Config.chosen : Config := Config.ofRaw Config.raw

/-- The example configuration `CFG-T` of 00_scope.md section 3, used only by tests. -/
def Config.cfgT : Config :=
  { w := 8, threshDht := 40, threshIr := 100, tStartLow := 200, tStartHigh := 30, tickHz := 0
    w_pos := by decide, threshDht_lt := by decide, threshIr_lt := by decide
    tStartLow_le := by decide, tStartHigh_lt := by decide, tStartHigh_pos := by decide }

/-- Free value: the level of a line at a tick for which the state lists no level. The argument is the
model's count of all ticks passed (`Env.clock`), never restarted (00_scope.md R11, 30_encoding.md R63;
log 5). -/
opaque Config.line : Line → Nat → Bool

end Sys2Proof
end

