-- ==== Sys2Proof/Syntax.lean ====
section
/-! DEFINITION. The operations: one constructor per row of spec/opcode_table.json. -/

namespace Sys2Proof

/-- The 20 operations of 30_encoding.md R66 with their small operands (R65). Wide operands are not part of
an operation: they are sampled from `din_a`, `din_b` when the command is accepted. -/
inductive Instr where
  /-- `CNT_RESET`, 40_edgetimer.md R81. -/
  | cntReset
  /-- `CNT_ARM maxTicks`, 40_edgetimer.md R82; `maxTicks` is `din_a`. -/
  | cntArm
  /-- `CNT_EXPIRED`, 40_edgetimer.md R83. -/
  | cntExpired
  /-- `CNT_TICKS`, 40_edgetimer.md R84. -/
  | cntTicks
  /-- `ET_ARM`, 40_edgetimer.md R85. -/
  | etArm
  /-- `ET_MEASURE level, sel`, 40_edgetimer.md R86. -/
  | etMeasure (level : Bool) (sel : Line)
  /-- `ET_COUNT`, 40_edgetimer.md R89. -/
  | etCount
  /-- `PC_CLASSIFY ticks, threshold`, 41_pulseclassifier.md R95; the operands are `din_a`, `din_b`. -/
  | pcClassify
  /-- `FA_CLEAR N`, 42_frameassembler.md R101. -/
  | faClear (len : Nat)
  /-- `FA_PUSH b`, 42_frameassembler.md R102. -/
  | faPush (bit : Bool)
  /-- `FA_PACK s`, 42_frameassembler.md R103. -/
  | faPack (start : Nat)
  /-- `DHT_ACQUIRE`, 43_dht11.md R108. -/
  | dhtAcquire
  /-- `DHT_READ_TEMP`, 43_dht11.md R117. -/
  | dhtReadTemp
  /-- `DHT_READ_HUM`, 43_dht11.md R118. -/
  | dhtReadHum
  /-- `IR_AVAIL`, 44_irremote.md R123. -/
  | irAvail
  /-- `IR_WAIT`, 44_irremote.md R125. -/
  | irWait
  /-- `IR_READ_CMD`, 44_irremote.md R131. -/
  | irReadCmd
  /-- `IR_READ_ADDR`, 44_irremote.md R132. -/
  | irReadAddr
  /-- `IR_EDGE`, 44_irremote.md R121. -/
  | irEdge
  /-- `IR_CLR_EDGE`, 44_irremote.md R122. -/
  | irClrEdge
  deriving DecidableEq, Repr

end Sys2Proof
end

