-- ==== Sys2Proof/WellFormed.lean ====
section
/-! DEFINITION. Which operations have an encoding: the 6-bit operand fields of 30_encoding.md R65. -/

namespace Sys2Proof

/-- An operand of `imm[5:0]` is below 64. `FA_CLEAR 0`, `FA_CLEAR 41` and `FA_PACK 40` are well formed: they
match their rows and are refused when they run (30_encoding.md R66, last sentence). -/
def Instr.wellFormed : Instr → Bool
  | .cntReset => true
  | .cntArm => true
  | .cntExpired => true
  | .cntTicks => true
  | .etArm => true
  | .etMeasure _ _ => true
  | .etCount => true
  | .pcClassify => true
  | .faClear len => decide (len < 64)
  | .faPush _ => true
  | .faPack start => decide (start < 64)
  | .dhtAcquire => true
  | .dhtReadTemp => true
  | .dhtReadHum => true
  | .irAvail => true
  | .irWait => true
  | .irReadCmd => true
  | .irReadAddr => true
  | .irEdge => true
  | .irClrEdge => true

end Sys2Proof
end

