-- ==== Sys2Proof/Decode.lean ====
section
/-! DEFINITION. Decoding and encoding of the 16-bit command word (30_encoding.md R64 to R66, R70). -/

namespace Sys2Proof

/-- Why a command word is reserved (30_encoding.md R70). -/
inductive Reserved where
  /-- `unit` 6 to 15. -/
  | unit (u : Nat)
  /-- A `func` the unit does not list. -/
  | func (u f : Nat)
  /-- A non-zero bit in an `imm` position the row's mask covers. -/
  | imm (i : Nat)
  deriving DecidableEq, Repr

/-- `cmd[15:12]`. -/
def unitOf (w : Command) : Nat := (w.extractLsb' 12 4).toNat

/-- `cmd[11:8]`. -/
def funcOf (w : Command) : Nat := (w.extractLsb' 8 4).toNat

/-- `cmd[7:0]`. -/
def immOf (w : Command) : Nat := (w.extractLsb' 0 8).toNat

/-- `sel = imm[1]`: 0 the sensor line, 1 the receiver line (30_encoding.md R65). -/
def Line.ofBit (b : Bool) : Line := if b then .receiver else .sensor

/-- The code of a line in `imm[1]`. -/
def Line.toBit : Line → Bool
  | .sensor => false
  | .receiver => true

/-- `i` if the bits of `imm` from `bits` up are 0, else reserved. -/
def withImm (bits : Nat) (w : Command) (i : Instr) : Except Reserved Instr :=
  if immOf w < 2 ^ bits then .ok i else .error (.imm (immOf w))

/-- Unit 0, the counter. -/
def decodeCounter (w : Command) : Except Reserved Instr :=
  match funcOf w with
  | 0 => withImm 0 w .cntReset
  | 1 => withImm 0 w .cntArm
  | 2 => withImm 0 w .cntExpired
  | 3 => withImm 0 w .cntTicks
  | f => .error (.func 0 f)

/-- Unit 1, the EdgeTimer. -/
def decodeEdgeTimer (w : Command) : Except Reserved Instr :=
  match funcOf w with
  | 0 => withImm 0 w .etArm
  | 1 => withImm 2 w (.etMeasure (w.getLsbD 0) (Line.ofBit (w.getLsbD 1)))
  | 2 => withImm 0 w .etCount
  | f => .error (.func 1 f)

/-- Unit 2, the PulseClassifier. -/
def decodeClassifier (w : Command) : Except Reserved Instr :=
  match funcOf w with
  | 0 => withImm 0 w .pcClassify
  | f => .error (.func 2 f)

/-- Unit 3, the FrameAssembler. -/
def decodeFrameAssembler (w : Command) : Except Reserved Instr :=
  match funcOf w with
  | 0 => withImm 6 w (.faClear (immOf w))
  | 1 => withImm 1 w (.faPush (w.getLsbD 0))
  | 2 => withImm 6 w (.faPack (immOf w))
  | f => .error (.func 3 f)

/-- Unit 4, DHT11Protocol. -/
def decodeDht (w : Command) : Except Reserved Instr :=
  match funcOf w with
  | 0 => withImm 0 w .dhtAcquire
  | 1 => withImm 0 w .dhtReadTemp
  | 2 => withImm 0 w .dhtReadHum
  | f => .error (.func 4 f)

/-- Unit 5, IRRemoteProtocol. -/
def decodeIr (w : Command) : Except Reserved Instr :=
  match funcOf w with
  | 0 => withImm 0 w .irAvail
  | 1 => withImm 0 w .irWait
  | 2 => withImm 0 w .irReadCmd
  | 3 => withImm 0 w .irReadAddr
  | 4 => withImm 0 w .irEdge
  | 5 => withImm 0 w .irClrEdge
  | f => .error (.func 5 f)

/-- The operation a command word selects, or why the word is reserved (30_encoding.md R66, R70). -/
def decode (w : Command) : Except Reserved Instr :=
  match unitOf w with
  | 0 => decodeCounter w
  | 1 => decodeEdgeTimer w
  | 2 => decodeClassifier w
  | 3 => decodeFrameAssembler w
  | 4 => decodeDht w
  | 5 => decodeIr w
  | u => .error (.unit u)

/-- A word of the three fields of 30_encoding.md R64. -/
def command (unit func imm : Nat) : Command := BitVec.ofNat 16 (unit * 4096 + func * 256 + imm)

/-- The command word of an operation (30_encoding.md R65, R66). -/
def encode : Instr → Command
  | .cntReset => command 0 0 0
  | .cntArm => command 0 1 0
  | .cntExpired => command 0 2 0
  | .cntTicks => command 0 3 0
  | .etArm => command 1 0 0
  | .etMeasure level sel => command 1 1 (2 * sel.toBit.toNat + level.toNat)
  | .etCount => command 1 2 0
  | .pcClassify => command 2 0 0
  | .faClear len => command 3 0 len
  | .faPush bit => command 3 1 bit.toNat
  | .faPack start => command 3 2 start
  | .dhtAcquire => command 4 0 0
  | .dhtReadTemp => command 4 1 0
  | .dhtReadHum => command 4 2 0
  | .irAvail => command 5 0 0
  | .irWait => command 5 1 0
  | .irReadCmd => command 5 2 0
  | .irReadAddr => command 5 3 0
  | .irEdge => command 5 4 0
  | .irClrEdge => command 5 5 0

/-- One row of 30_encoding.md R66: the word `w` selects the row when `w &&& mask = pattern`. -/
structure OpcodeRow where
  mnemonic : String
  pattern : Command
  mask : Command
  deriving DecidableEq, Repr

/-- The 20 rows of 30_encoding.md R66, in the table's order. -/
def opcodeRows : List OpcodeRow :=
  [ ⟨"CNT_RESET", 0x0000, 0xFFFF⟩, ⟨"CNT_ARM", 0x0100, 0xFFFF⟩, ⟨"CNT_EXPIRED", 0x0200, 0xFFFF⟩,
    ⟨"CNT_TICKS", 0x0300, 0xFFFF⟩, ⟨"ET_ARM", 0x1000, 0xFFFF⟩, ⟨"ET_MEASURE", 0x1100, 0xFFFC⟩,
    ⟨"ET_COUNT", 0x1200, 0xFFFF⟩, ⟨"PC_CLASSIFY", 0x2000, 0xFFFF⟩, ⟨"FA_CLEAR", 0x3000, 0xFFC0⟩,
    ⟨"FA_PUSH", 0x3100, 0xFFFE⟩, ⟨"FA_PACK", 0x3200, 0xFFC0⟩, ⟨"DHT_ACQUIRE", 0x4000, 0xFFFF⟩,
    ⟨"DHT_READ_TEMP", 0x4100, 0xFFFF⟩, ⟨"DHT_READ_HUM", 0x4200, 0xFFFF⟩, ⟨"IR_AVAIL", 0x5000, 0xFFFF⟩,
    ⟨"IR_WAIT", 0x5100, 0xFFFF⟩, ⟨"IR_READ_CMD", 0x5200, 0xFFFF⟩, ⟨"IR_READ_ADDR", 0x5300, 0xFFFF⟩,
    ⟨"IR_EDGE", 0x5400, 0xFFFF⟩, ⟨"IR_CLR_EDGE", 0x5500, 0xFFFF⟩ ]

/-- The place of an operation's row in `opcodeRows`. -/
def Instr.row : Instr → Nat
  | .cntReset => 0
  | .cntArm => 1
  | .cntExpired => 2
  | .cntTicks => 3
  | .etArm => 4
  | .etMeasure _ _ => 5
  | .etCount => 6
  | .pcClassify => 7
  | .faClear _ => 8
  | .faPush _ => 9
  | .faPack _ => 10
  | .dhtAcquire => 11
  | .dhtReadTemp => 12
  | .dhtReadHum => 13
  | .irAvail => 14
  | .irWait => 15
  | .irReadCmd => 16
  | .irReadAddr => 17
  | .irEdge => 18
  | .irClrEdge => 19

/-- Does the row select the word (30_encoding.md R66)? -/
def OpcodeRow.selects (r : OpcodeRow) (w : Command) : Bool := w &&& r.mask == r.pattern

/-- The operation the decoder reads from a table row's bits: the low `nbits` bits of `w`, higher bits 0. A
command is one 16-bit word on the port (30_encoding.md R64), so there is nothing to lay out in bytes. -/
def decodeTableWord (nbits w : Nat) : Option Instr :=
  if w % 2 ^ nbits < 2 ^ 16 then (decode (BitVec.ofNat 16 (w % 2 ^ nbits))).toOption else none

end Sys2Proof
end

