-- ==== Sys2Proof/Machine/State.lean ====
section
/-! DEFINITION. The state of the block as plain data (10_state.md R14 to R29, 30_encoding.md R60), what its
environment does, the reasons to stop, and the state after reset (70_reset_and_hazards.md R156). -/

namespace Sys2Proof.Machine

open Sys2Proof

/-- `ProtocolStatus` (30_encoding.md R67, 60_exceptions.md R140). -/
inductive Status where
  | ok
  | timeoutError
  | checksumError
  | overwriteError
  deriving DecidableEq, Repr

/-- The values of `dht_state` (10_state.md R21). -/
inductive DhtState where
  | idle
  | startLow
  | startHigh
  | await (p : Fin 4)
  | sampleLow (n : Fin 40)
  | sampleHigh (n : Fin 40)
  | validating
  | done
  | failed
  deriving DecidableEq, Repr

/-- The values of `ir_state` (10_state.md R24). -/
inductive IrState where
  | idle
  | startDetected
  | sampleLow (n : Fin 32)
  | sampleHigh (n : Fin 32)
  | validating
  | done
  | failed
  deriving DecidableEq, Repr

/-- The response pins `rsp_valid`, `rsp_data`, `rsp_flag`, `rsp_status`, `rsp_ill` (30_encoding.md R60). -/
structure Response where
  valid : Bool
  data : Nat
  flag : Bool
  status : Status
  ill : Bool
  deriving DecidableEq, Repr

/-- No response is presented; every field is 0 (70_reset_and_hazards.md R156). -/
def Response.quiet : Response :=
  { valid := false, data := 0, flag := false, status := .ok, ill := false }

/-- What the host does while the port is ready (00_scope.md R13, 30_encoding.md R62; log 6). -/
inductive HostEvent where
  /-- The host presents nothing and one tick passes. -/
  | idle
  /-- The host presents a command with its wide operands and holds it until it is accepted. -/
  | command (cmd : Command) (dinA dinB : Nat)
  deriving DecidableEq, Repr

/-- The environment of the block, which is no state of the block (10_state.md R14): the tick index, the
levels on the input pins from the current tick on, and the host's next events. -/
structure Env where
  /-- `now`, the index of the current tick since reset was released (00_scope.md R10). -/
  now : Nat
  /-- All ticks passed, not restarted by `rst`: the argument of `Config.line` (log 5). -/
  clock : Nat
  /-- Levels of `dht_in` from the current tick on; a level not listed is `Config.line`. -/
  dhtWave : List Bool
  /-- Levels of `ir_in` from the current tick on; a level not listed is `Config.line`. -/
  irWave : List Bool
  /-- Levels of `rst` from the current tick on; a level not listed is 0 (log 7). -/
  rstWave : List Bool
  /-- What the host does next, in order. -/
  host : List HostEvent
  /-- `din_a` as sampled with the last accepted command (30_encoding.md R62). -/
  dinA : Nat
  /-- `din_b` as sampled with the last accepted command. -/
  dinB : Nat
  deriving DecidableEq, Repr

/-- The environment of `State.reset`: tick 0, nothing given, nothing pending. -/
def Env.initial : Env :=
  { now := 0, clock := 0, dhtWave := [], irWave := [], rstWave := [], host := [], dinA := 0, dinB := 0 }

/-- What a position of the frame space that is not listed holds. The spec leaves the value after reset open
(10_state.md R18, 93_implementation_defined.md U7): DESIGN CHOICE 0 (log 9). -/
def unlistedBit : Bool := false

/-- The frame space (20_memory.md R40): pairs of a position and its bit, in ONE canonical form: positions strictly
rising and below 40, and no entry with the bit an unlisted position holds. -/
abbrev Memory := List (Nat × Bool)

/-- Positions rise strictly from at least `least` and stay below 40; no bit is the unlisted one. -/
def Memory.risingFrom (least : Nat) : Memory → Bool
  | [] => true
  | (p, b) :: rest =>
    decide (least ≤ p) && decide (p < 40) && decide (b ≠ unlistedBit) && Memory.risingFrom (p + 1) rest

/-- The canonical form of the frame space. -/
def Memory.wf (m : Memory) : Bool := Memory.risingFrom 0 m

/-- The machine: the instance's parameters, the registers of 10_state.md section 1, the response pins, and
the environment. -/
structure State where
  /-- The parameters of the instance; no step changes them (00_scope.md R8; log 1). -/
  cfg : Config
  /-- `cnt` (R15). -/
  cnt : Nat
  /-- `limit` (R16). -/
  limit : Nat
  /-- `frame` (R18). -/
  frame : Memory
  /-- `frame_len` (R19). -/
  frameLen : Nat
  /-- `frame_wr` (R19). -/
  frameWr : Nat
  /-- `dht_state` (R21). -/
  dhtState : DhtState
  /-- `dht_hum` (R22). -/
  dhtHum : Byte
  /-- `dht_temp` (R22). -/
  dhtTemp : Byte
  /-- `dht_par` (R22). -/
  dhtPar : Byte
  /-- `dht_oe`, also the pin (R23). -/
  dhtOe : Bool
  /-- `dht_out`, also the pin (R23). -/
  dhtOut : Bool
  /-- `ir_state` (R24). -/
  irState : IrState
  /-- `ir_offset` (R25). -/
  irOffset : Bool
  /-- `ir_unread` (R26). -/
  irUnread : Bool
  /-- `ir_addr` (R27). -/
  irAddr : Byte
  /-- `ir_cmd` (R27). -/
  irCmd : Byte
  /-- `ir_edge_ticks` (R28). -/
  irEdgeTicks : Nat
  /-- `busy` (R29). -/
  busy : Bool
  /-- The `level` of the running `ET_MEASURE` (R29). -/
  measLevel : Bool
  /-- The `sel` of the running `ET_MEASURE` (R29). -/
  measSel : Line
  /-- The response pins as the last step left them (30_encoding.md R60, R62). -/
  rsp : Response
  /-- The environment. -/
  env : Env
  deriving DecidableEq, Repr

/-- Why a run stops with a fault. The spec describes none (93_implementation_defined.md, last paragraph of its
first part); this one is the model's own and unreachable from reset (log 9). -/
inductive Fault where
  /-- Raised by a frame access outside positions 0 to 39: `FA_PUSH`, `FA_PACK` in a state with `frame_len > 40`,
  which 10_state.md R19 rules out. Safe: no such position exists (20_memory.md R40). -/
  | noSuchPosition (p : Nat)
  deriving DecidableEq, Repr

/-- Why a run stops with a refusal. A command the spec refuses is answered with `rsp_ill = 1` and goes on
(30_encoding.md R70; log 8), so this is not for it. -/
inductive Refusal where
  /-- Raised by `exec` for an operation with no meaning yet. Safe. No arm raises it. -/
  | notModelled (mnemonic : String)
  deriving DecidableEq, Repr

/-- The reset values of 70_reset_and_hazards.md R156 for the instance `c`. -/
def State.resetOf (c : Config) : State :=
  { cfg := c
    cnt := 0
    limit := c.maxTicks
    frame := []
    frameLen := 0
    frameWr := 0
    dhtState := .idle
    dhtHum := 0
    dhtTemp := 0
    dhtPar := 0
    dhtOe := false
    dhtOut := true
    irState := .idle
    irOffset := false
    irUnread := false
    irAddr := 0
    irCmd := 0
    irEdgeTicks := 0
    busy := false
    measLevel := false
    measSel := .sensor
    rsp := .quiet
    env := .initial }

/-- The machine right after reset, of an instance of which only its legality is known (log 2). -/
def State.reset : State := State.resetOf Config.chosen

end Sys2Proof.Machine
end

