-- ==== Sys2Proof/Machine/Operands.lean ====
section
/-! DEFINITION. The wide operands (30_encoding.md R65). The small operands are fields of `Instr`, read by the
decoder. -/

namespace Sys2Proof.Machine

/-- The `W` bits a wide port carries. -/
def ofPort (c : Config) (n : Nat) : Nat := n % 2 ^ c.w

/-- `maxTicks` of `CNT_ARM` and `ticks` of `PC_CLASSIFY`: `din_a`. -/
def operandA (s : State) : Nat := ofPort s.cfg s.env.dinA

/-- `threshold` of `PC_CLASSIFY`: `din_b`. -/
def operandB (s : State) : Nat := ofPort s.cfg s.env.dinB

end Sys2Proof.Machine
end

