-- ==== Sys2Proof/Machine/Flags.lean ====
section
/-! DEFINITION. The derived conditions of the block (10_state.md R31) and the numeric codes (30_encoding.md
R67, R68). -/

namespace Sys2Proof.Machine

/-- `expired = (cnt ≥ limit)`, combinational and not a latch (10_state.md R17). -/
def expired (s : State) : Bool := decide (s.limit ≤ s.cnt)

/-- The availability flag: `ir_state = StartDetected` (10_state.md R24, 44_irremote.md R123). -/
def available (s : State) : Bool := decide (s.irState = .startDetected)

/-- The frame is fully populated: `frame_len ≥ 1` and `frame_wr = frame_len` (10_state.md R19). -/
def fullyPopulated (s : State) : Bool := decide (1 ≤ s.frameLen) && decide (s.frameWr = s.frameLen)

/-- The level of the pin `rst` at the current tick. -/
def rstNow (e : Env) : Bool := e.rstWave.headD false

/-- `cmd_ready = 1` exactly when `rst = 0` and `busy = 0` (30_encoding.md R62). -/
def cmdReady (s : State) : Bool := !rstNow s.env && !s.busy

/-- `Line(sel, now)`: the level of a line at the current tick (00_scope.md R11, 30_encoding.md R63). -/
def lineNow (e : Env) : Line → Bool
  | .sensor => e.dhtWave.headD (Config.line .sensor e.clock)
  | .receiver => e.irWave.headD (Config.line .receiver e.clock)

/-- A resting value of `dht_state`: `Idle`, `Done` or `Failed` (10_state.md R21). -/
def DhtState.resting : DhtState → Bool
  | .idle => true
  | .startLow => false
  | .startHigh => false
  | .await _ => false
  | .sampleLow _ => false
  | .sampleHigh _ => false
  | .validating => false
  | .done => true
  | .failed => true

/-- A resting value of `ir_state`: `Idle`, `StartDetected`, `Done` or `Failed` (10_state.md R24). -/
def IrState.resting : IrState → Bool
  | .idle => true
  | .startDetected => true
  | .sampleLow _ => false
  | .sampleHigh _ => false
  | .validating => false
  | .done => true
  | .failed => true

/-- `rsp_status` (30_encoding.md R67). -/
def Status.code : Status → BitVec 2
  | .ok => 0
  | .timeoutError => 1
  | .checksumError => 2
  | .overwriteError => 3

/-- A state code `major[3:0], idx[5:0]` (30_encoding.md R68). -/
def stateCode (major idx : Nat) : BitVec 10 := BitVec.ofNat 4 major ++ BitVec.ofNat 6 idx

/-- The code of `dht_state` (30_encoding.md R68). -/
def DhtState.code : DhtState → BitVec 10
  | .idle => stateCode 0 0
  | .startLow => stateCode 1 0
  | .startHigh => stateCode 2 0
  | .await p => stateCode 3 p
  | .sampleLow n => stateCode 4 n
  | .sampleHigh n => stateCode 5 n
  | .validating => stateCode 6 0
  | .done => stateCode 7 0
  | .failed => stateCode 8 0

/-- The code of `ir_state` (30_encoding.md R68). -/
def IrState.code : IrState → BitVec 10
  | .idle => stateCode 0 0
  | .startDetected => stateCode 1 0
  | .sampleLow n => stateCode 4 n
  | .sampleHigh n => stateCode 5 n
  | .validating => stateCode 6 0
  | .done => stateCode 7 0
  | .failed => stateCode 8 0

end Sys2Proof.Machine
end

