-- ==== Sys2Proof/Machine/Ops.lean ====
section
/-! DEFINITION. The shared operations: the tick, the counter, responses, the frame space, one poll of a
measurement, entry into failure (`raise`), and reset. -/

namespace Sys2Proof.Machine

/-! ### The tick -/

/-- One tick of the environment: every input pin moves on to its next level. -/
def Env.advance (e : Env) : Env :=
  { e with
    now := e.now + 1, clock := e.clock + 1
    dhtWave := e.dhtWave.tail, irWave := e.irWave.tail, rstWave := e.rstWave.tail }

/-- `tick()` (40_edgetimer.md R80): the counter counts up to its bound and stops there. -/
def State.tick (s : State) : State :=
  { s with cnt := if s.cnt < s.limit then s.cnt + 1 else s.cnt, env := s.env.advance }

/-! ### Responses (30_encoding.md R69, R70) -/

/-- Present a response. -/
def respond (r : Response) (s : State) : State := { s with rsp := r }

/-- No response is presented. -/
def noResponse (s : State) : State := respond .quiet s

/-- A tick passes; a response of the tick before is no longer presented (30_encoding.md R62: `rsp_valid` is 1
for exactly one tick per accepted command; log 4). -/
def letTickPass (s : State) : State := (noResponse s).tick

/-- The response that carries a value. -/
def dataResponse (n : Nat) : Response :=
  { valid := true, data := n, flag := false, status := .ok, ill := false }

/-- The response of an operation with "no return value". -/
def ackResponse : Response := dataResponse 0

/-- The response with one bit in `rsp_data[0]`. -/
def bitResponse (b : Bool) : Response := dataResponse b.toNat

/-- The response of `ET_MEASURE`: a PulseMeasurement `(ticks, timeout)`. -/
def measureResponse (ticks : Nat) (timeout : Bool) : Response :=
  { valid := true, data := ticks, flag := timeout, status := .ok, ill := false }

/-- The response of an acquisition. -/
def statusResponse (st : Status) : Response :=
  { valid := true, data := 0, flag := false, status := st, ill := false }

/-- The response to a reserved or refused command. -/
def illResponse : Response :=
  { valid := true, data := 0, flag := false, status := .ok, ill := true }

/-- `refuse`: no state change, no tick, `rsp_ill = 1` (30_encoding.md R70; log 8). -/
def refuse (s : State) : State := respond illResponse s

/-! ### The counter (40_edgetimer.md R81, R82, R85, R91) -/

/-- The counter's `reset()`: `cnt <- 0`. -/
def zeroCount (s : State) : State := { s with cnt := 0 }

/-- The counter's `armTimeout(m)`: `limit <- m`. -/
def setLimit (m : Nat) (s : State) : State := { s with limit := m }

/-- Zero the counter and bound it by `m`: the start of `DELAY m`. -/
def startCount (m : Nat) (s : State) : State := setLimit m (zeroCount s)

/-- `resetAndArm()`: zero the counter and bound it by full scale. -/
def armFull (s : State) : State := startCount s.cfg.maxTicks s

/-! ### One poll of a measurement (40_edgetimer.md R86) -/

/-- What one pass of the loop of `ET_MEASURE` finds. -/
inductive Poll where
  /-- The counter has reached its bound. -/
  | timedOut
  /-- The line is away from the level; the PulseMeasurement's tick count. -/
  | ended (ticks : Nat)
  /-- The line still holds the level: a tick passes. -/
  | running
  deriving DecidableEq, Repr

/-- The loop body of `ET_MEASURE level, sel`. Expiry is tested first (R87 (c), 92_eei_decisions.md D8). -/
def poll (level : Bool) (sel : Line) (s : State) : Poll :=
  if expired s then .timedOut
  else if lineNow s.env sel ≠ level then .ended s.cnt
  else .running

/-! ### The frame space (20_memory.md R40 to R46) -/

/-- The bit a position holds. -/
def Memory.bitAt (m : Memory) (p : Nat) : Bool :=
  match m with
  | [] => unlistedBit
  | (q, b) :: rest => if q = p then b else Memory.bitAt rest p

/-- `frame[p]`: only a position that does not exist faults (20_memory.md R40; log 9). -/
def Memory.readBit (m : Memory) (p : Nat) : Except Fault Bool :=
  if p < 40 then .ok (m.bitAt p) else .error (.noSuchPosition p)

/-- Every entry of `m` but those of position `p`: the position then holds the unlisted bit. -/
def Memory.unlist (m : Memory) (p : Nat) : Memory :=
  match m with
  | [] => []
  | (q, c) :: rest => if q = p then Memory.unlist rest p else (q, c) :: Memory.unlist rest p

/-- List `b` for position `p`, in the order of the positions. -/
def Memory.enlist (m : Memory) (p : Nat) (b : Bool) : Memory :=
  match m with
  | [] => [(p, b)]
  | (q, c) :: rest => if p < q then (p, b) :: (q, c) :: rest else (q, c) :: Memory.enlist rest p b

/-- `MemWrite(p, 1, b)` (20_memory.md R42), in the canonical form. -/
def Memory.writeBit (m : Memory) (p : Nat) (b : Bool) : Memory :=
  if b = unlistedBit then m.unlist p else (m.unlist p).enlist p b

/-- `MemRead(p, n)` (20_memory.md R43): position `p` is the most significant of the `n` bits. -/
def Memory.read (m : Memory) (p : Nat) : Nat → Except Fault Nat
  | 0 => .ok 0
  | n + 1 =>
    match m.readBit p with
    | .error f => .error f
    | .ok b =>
      match Memory.read m (p + 1) n with
      | .error f => .error f
      | .ok rest => .ok (b.toNat * 2 ^ n + rest)

/-- `pack8(s) = MemRead(s, 8)` (42_frameassembler.md R100). -/
def Memory.pack8 (m : Memory) (start : Nat) : Except Fault Byte :=
  match m.read start 8 with
  | .error f => .error f
  | .ok v => .ok (BitVec.ofNat 8 v)

/-- The shifter form of `pack8` (42_frameassembler.md R104): an 8-bit register takes `n` bits at its least
significant end, in arrival order. -/
def Memory.shiftIn (m : Memory) (acc : Byte) (p : Nat) : Nat → Except Fault Byte
  | 0 => .ok acc
  | n + 1 =>
    match m.readBit p with
    | .error f => .error f
    | .ok b => Memory.shiftIn m (acc <<< 1 ||| BitVec.ofNat 8 b.toNat) (p + 1) n

/-- The command byte under `ir_offset` (20_memory.md R46): positions 16 to 23, or positions 17 to 23 in value
bits 7 to 1 and value bit 0 = 0. -/
def Memory.commandWindow (m : Memory) (offset : Bool) : Except Fault Byte :=
  if offset then
    match m.read 17 7 with
    | .error f => .error f
    | .ok v => .ok (BitVec.ofNat 8 (2 * v))
  else m.pack8 16

/-- The address byte under `ir_offset` (20_memory.md R46): positions 0 to 7, or 1 to 8. -/
def Memory.addressWindow (m : Memory) (offset : Bool) : Except Fault Byte :=
  if offset then m.pack8 1 else m.pack8 0

/-- The three bytes of a sensor frame (20_memory.md R45). -/
structure SensorPacket where
  hum : Byte
  temp : Byte
  par : Byte
  deriving DecidableEq, Repr

/-- `hum = pack8(0)`, `temp = pack8(16)`, `par = pack8(32)` (20_memory.md R45, 43_dht11.md R114). -/
def Memory.sensorPacket (m : Memory) : Except Fault SensorPacket :=
  match m.pack8 0 with
  | .error f => .error f
  | .ok hum =>
    match m.pack8 16 with
    | .error f => .error f
    | .ok temp =>
      match m.pack8 32 with
      | .error f => .error f
      | .ok par => .ok { hum := hum, temp := temp, par := par }

/-- The two bytes of a remote frame (20_memory.md R46). -/
structure RemoteCommand where
  addr : Byte
  cmd : Byte
  deriving DecidableEq, Repr

/-- Address and command under the applicable windows (20_memory.md R46, 44_irremote.md R127). -/
def Memory.remoteCommand (m : Memory) (offset : Bool) : Except Fault RemoteCommand :=
  match m.addressWindow offset with
  | .error f => .error f
  | .ok addr =>
    match m.commandWindow offset with
    | .error f => .error f
    | .ok cmd => .ok { addr := addr, cmd := cmd }

/-- Start a frame of length `len`; the positions keep their contents (42_frameassembler.md R101). -/
def startFrame (len : Nat) (s : State) : State := { s with frameLen := len, frameWr := 0 }

/-- `MemWrite(p, 1, b) ; frame_wr <- p + 1` (20_memory.md R42). -/
def storeBit (p : Nat) (b : Bool) (s : State) : State :=
  { s with frame := s.frame.writeBit p b, frameWr := p + 1 }

/-- `DISCARD_FRAME` (30_encoding.md R72): the positions keep their contents. -/
def discardFrame (s : State) : State := startFrame 0 s

/-! ### Entry into failure (60_exceptions.md R141) -/

/-- Which protocol's acquisition is running. -/
inductive Protocol where
  | dht
  | ir
  deriving DecidableEq, Repr

/-- The protocol's state machine goes to `Failed`. -/
def setFailed (p : Protocol) (s : State) : State :=
  match p with
  | .dht => { s with dhtState := .failed }
  | .ir => { s with irState := .failed }

/-- The operation returns: `busy <- 0` and its response is presented, at this tick. -/
def finish (r : Response) (s : State) : State := { respond r s with busy := false }

/-- `raise S`: discard the frame, go to `Failed`, return the status; nothing is saved and no tick passes. There
is no return from it (60_exceptions.md R146): the next `DHT_ACQUIRE` or `IR_EDGE` leaves `Failed`. -/
def raiseStatus (p : Protocol) (st : Status) (s : State) : State :=
  finish (statusResponse st) (setFailed p (discardFrame s))

/-! ### Reset (70_reset_and_hazards.md R155, R156) -/

/-- A tick with `rst = 1`: every register takes its reset value, the port accepts nothing, an operation in
flight is abandoned without a response; the tick index starts again (log 7). -/
def applyReset (s : State) : State :=
  { State.resetOf s.cfg with env := { s.env.advance with now := 0 } }

end Sys2Proof.Machine
end

