-- ==== Sys2Proof/Machine/Counter.lean ====
section
/-! DEFINITION. The counter's four operations (40_edgetimer.md R81 to R84). -/

namespace Sys2Proof.Machine

/-- `CNT_RESET` (R81). -/
def execCntReset (s : State) : Host.Outcome State Fault Refusal :=
  .next (respond ackResponse (zeroCount s))

/-- `CNT_ARM maxTicks` (R82). -/
def execCntArm (s : State) : Host.Outcome State Fault Refusal :=
  .next (respond ackResponse (setLimit (operandA s) s))

/-- `CNT_EXPIRED` (R83). -/
def execCntExpired (s : State) : Host.Outcome State Fault Refusal :=
  .next (respond (bitResponse (expired s)) s)

/-- `CNT_TICKS` (R84). -/
def execCntTicks (s : State) : Host.Outcome State Fault Refusal :=
  .next (respond (dataResponse s.cnt) s)

end Sys2Proof.Machine
end

