-- ==== Sys2Proof/Machine/Classifier.lean ====
section
/-! DEFINITION. The PulseClassifier (41_pulseclassifier.md R95). -/

namespace Sys2Proof.Machine

/-- `classify(ticks, threshold)`: 1 exactly when `ticks > threshold`; a tie is 0 (R95). -/
def classify (ticks threshold : Nat) : Bool := decide (threshold < ticks)

/-- `PC_CLASSIFY ticks, threshold` (R95). -/
def execPcClassify (s : State) : Host.Outcome State Fault Refusal :=
  .next (respond (bitResponse (classify (operandA s) (operandB s))) s)

end Sys2Proof.Machine
end

