-- ==== Sys2Proof/Machine/Dht11.lean ====
section
/-! DEFINITION. The sensor protocol (43_dht11.md R107 to R118). Each engine transition is one row of the table
of R107. -/

namespace Sys2Proof.Machine

/-- `DHT_ACQUIRE` at acceptance (R108 to R110): the port closes, the line is driven low, and the counter times
the first window. The rest of the operation is `dhtStep` (log 4). -/
def execDhtAcquire (s : State) : Host.Outcome State Fault Refusal :=
  .next (startCount s.cfg.tStartLow
    { noResponse s with busy := true, dhtState := .startLow, dhtOe := true, dhtOut := false })

/-- `StartLow`: after `T_START_LOW` ticks the line is driven high and the second window begins (R111). -/
def dhtStartLow (s : State) : State :=
  if expired s then
    startCount s.cfg.tStartHigh { noResponse s with dhtState := .startHigh, dhtOut := true }
  else letTickPass s

/-- `StartHigh`: after `T_START_HIGH` ticks the line is switched to sense mode, a frame of 40 is begun and
phase 0 is measured (R112). -/
def dhtStartHigh (s : State) : State :=
  if expired s then
    armFull (startFrame 40 { noResponse s with dhtOe := false, dhtState := .await 0 })
  else letTickPass s

/-- The state after handshake phase `p` (R107, R112). -/
def dhtAfterPhase (p : Fin 4) : DhtState :=
  if h : p.val + 1 < 4 then .await ⟨p.val + 1, h⟩ else .sampleLow 0

/-- `Await(p)`: phases 0 and 2 wait out level 0, phases 1 and 3 level 1 (R112). -/
def dhtAwait (p : Fin 4) (s : State) : State :=
  match poll (p.val % 2 == 1) .sensor s with
  | .timedOut => raiseStatus .dht .timeoutError s
  | .ended _ => armFull { noResponse s with dhtState := dhtAfterPhase p }
  | .running => letTickPass s

/-- `SampleLow(n)`: the separator, measured and discarded (R113). -/
def dhtSampleLow (n : Fin 40) (s : State) : State :=
  match poll false .sensor s with
  | .timedOut => raiseStatus .dht .timeoutError s
  | .ended _ => armFull { noResponse s with dhtState := .sampleHigh n }
  | .running => letTickPass s

/-- Bit `n` is in the frame: the next cell is measured, or after `n = 39` the frame is validated (R107). -/
def dhtNextCell (n : Fin 40) (s : State) : State :=
  if h : n.val + 1 < 40 then armFull { s with dhtState := .sampleLow ⟨n.val + 1, h⟩ }
  else { s with dhtState := .validating }

/-- `SampleHigh(n)`: the high span is measured, classified and stored at position `n` (R113). -/
def dhtSampleHigh (n : Fin 40) (s : State) : State :=
  match poll true .sensor s with
  | .timedOut => raiseStatus .dht .timeoutError s
  | .ended t => dhtNextCell n (storeBit n.val (classify t s.cfg.threshDht) (noResponse s))
  | .running => letTickPass s

/-- `Done`: the packet is stored and `Ok` returned (R116). -/
def dhtDone (p : SensorPacket) (s : State) : State :=
  finish (statusResponse .ok)
    { discardFrame s with dhtHum := p.hum, dhtTemp := p.temp, dhtPar := p.par, dhtState := .done }

/-- `Validating`, which takes no tick: the sum check of R115, in 8 bits, carry dropped. -/
def dhtValidate (s : State) : Host.Outcome State Fault Refusal :=
  match s.frame.sensorPacket with
  | .error f => .fault f
  | .ok p => .next (if p.temp + p.hum = p.par then dhtDone p s else raiseStatus .dht .checksumError s)

/-- `DHT_READ_TEMP` (R117). -/
def execDhtReadTemp (s : State) : Host.Outcome State Fault Refusal :=
  .next (respond (dataResponse s.dhtTemp.toNat) s)

/-- `DHT_READ_HUM` (R118). -/
def execDhtReadHum (s : State) : Host.Outcome State Fault Refusal :=
  .next (respond (dataResponse s.dhtHum.toNat) s)

end Sys2Proof.Machine
end

