-- ==== Sys2Proof/Machine/EdgeTimer.lean ====
section
/-! DEFINITION. The EdgeTimer (40_edgetimer.md R85, R86, R89). -/

namespace Sys2Proof.Machine

/-- `ET_ARM` (R85). -/
def execEtArm (s : State) : Host.Outcome State Fault Refusal :=
  .next (respond ackResponse (armFull s))

/-- `ET_MEASURE level, sel` at acceptance (R86, 30_encoding.md R62): the port closes and the engine holds the
operands; `measureStep` is the loop (log 4). -/
def execEtMeasure (level : Bool) (sel : Line) (s : State) : Host.Outcome State Fault Refusal :=
  .next { noResponse s with busy := true, measLevel := level, measSel := sel }

/-- One pass of the loop of `ET_MEASURE` (R86). -/
def measureStep (s : State) : State :=
  match poll s.measLevel s.measSel s with
  | .timedOut => finish (measureResponse s.cnt true) s
  | .ended ticks => finish (measureResponse ticks false) s
  | .running => letTickPass s

/-- `ET_COUNT` (R89). -/
def execEtCount (s : State) : Host.Outcome State Fault Refusal :=
  .next (respond (dataResponse s.cnt) s)

end Sys2Proof.Machine
end

