-- ==== Sys2Proof/Machine/FrameAssembler.lean ====
section
/-! DEFINITION. The FrameAssembler (42_frameassembler.md R101 to R103). -/

namespace Sys2Proof.Machine

/-- `FA_CLEAR N` (R101). -/
def execFaClear (len : Nat) (s : State) : Host.Outcome State Fault Refusal :=
  .next (if len = 0 ∨ 40 < len then refuse s else respond ackResponse (startFrame len s))

/-- `FA_PUSH b` (R102). The fault is for a `frame_wr` outside the frame space, which no run from reset
reaches (log 9). -/
def execFaPush (bit : Bool) (s : State) : Host.Outcome State Fault Refusal :=
  if s.frameLen ≤ s.frameWr then .next (refuse s)
  else if s.frameWr < 40 then .next (respond ackResponse (storeBit s.frameWr bit s))
  else .fault (.noSuchPosition s.frameWr)

/-- May `FA_PACK start` read (R103)? The window must lie inside a fully populated frame. -/
def packable (start : Nat) (s : State) : Bool :=
  fullyPopulated s && decide (start + 8 ≤ s.frameLen)

/-- `FA_PACK s` (R103). -/
def execFaPack (start : Nat) (s : State) : Host.Outcome State Fault Refusal :=
  if packable start s then
    match s.frame.pack8 start with
    | .ok b => .next (respond (dataResponse b.toNat) s)
    | .error f => .fault f
  else .next (refuse s)

end Sys2Proof.Machine
end

