-- ==== Sys2Proof/Machine/IrRemote.lean ====
section
/-! DEFINITION. The remote protocol (44_irremote.md R120 to R132). Each engine transition is one row of the table
of R120. -/

namespace Sys2Proof.Machine

/-- `IR_AVAIL` (R123). -/
def execIrAvail (s : State) : Host.Outcome State Fault Refusal :=
  .next (respond (bitResponse (available s)) s)

/-- `IR_WAIT` at acceptance (R125, R126): refused outside `StartDetected`; else the port closes, a frame of 32
is begun and the mark of interval 0 is measured. The rest of the operation is `irStep` (log 4). -/
def execIrWait (s : State) : Host.Outcome State Fault Refusal :=
  .next (if available s then
      armFull (startFrame 32 { noResponse s with busy := true, irState := .sampleLow 0 })
    else refuse s)

/-- `SampleLow(n)`: the mark, measured and discarded (R124). -/
def irSampleLow (n : Fin 32) (s : State) : State :=
  match poll false .receiver s with
  | .timedOut => raiseStatus .ir .timeoutError s
  | .ended _ => armFull { noResponse s with irState := .sampleHigh n }
  | .running => letTickPass s

/-- Bit `n` is in the frame: the next interval is measured, or after `n = 31` the frame is validated (R120). -/
def irNextInterval (n : Fin 32) (s : State) : State :=
  if h : n.val + 1 < 32 then armFull { s with irState := .sampleLow ⟨n.val + 1, h⟩ }
  else { s with irState := .validating }

/-- `SampleHigh(n)`: the space is measured, classified and stored at position `n` (R124). -/
def irSampleHigh (n : Fin 32) (s : State) : State :=
  match poll true .receiver s with
  | .timedOut => raiseStatus .ir .timeoutError s
  | .ended t => irNextInterval n (storeBit n.val (classify t s.cfg.threshIr) (noResponse s))
  | .running => letTickPass s

/-- `Done`: the command is stored, unread; from now on the windows are shifted (R127, R129). -/
def irDone (c : RemoteCommand) (s : State) : State :=
  finish (statusResponse .ok)
    { discardFrame s with
      irAddr := c.addr, irCmd := c.cmd, irUnread := true, irOffset := true, irState := .done }

/-- `Validating`, which takes no tick: the address check, then the unread check (R128). -/
def irValidate (s : State) : Host.Outcome State Fault Refusal :=
  match s.frame.remoteCommand s.irOffset with
  | .error f => .fault f
  | .ok c =>
    .next (if c.addr = 0xFF then raiseStatus .ir .checksumError s
      else if s.irUnread then raiseStatus .ir .overwriteError s
      else irDone c s)

/-- `IR_READ_CMD` (R131). -/
def execIrReadCmd (s : State) : Host.Outcome State Fault Refusal :=
  .next (respond (dataResponse s.irCmd.toNat) { s with irUnread := false })

/-- `IR_READ_ADDR` (R132). -/
def execIrReadAddr (s : State) : Host.Outcome State Fault Refusal :=
  .next (respond (dataResponse s.irAddr.toNat) { s with irUnread := false })

/-- `IR_EDGE` (R121): record the start of a frame and take one timing sample. -/
def execIrEdge (s : State) : Host.Outcome State Fault Refusal :=
  .next (respond ackResponse { s with irState := .startDetected, irEdgeTicks := s.cnt })

/-- `IR_CLR_EDGE` (R122): withdraw a recorded start of frame (log 11). -/
def execIrClrEdge (s : State) : Host.Outcome State Fault Refusal :=
  .next (respond ackResponse (if available s then { s with irState := .idle } else s))

end Sys2Proof.Machine
end

