-- ==== Sys2Proof/Machine/Dispatch.lean ====
section
/-! DEFINITION. The meaning of an accepted operation: one arm per constructor. -/

namespace Sys2Proof.Machine

open Sys2Proof

def exec (i : Instr) (s : State) : Host.Outcome State Fault Refusal :=
  match i with
  | .cntReset => Sys2Proof.Machine.execCntReset s
  | .cntArm => Sys2Proof.Machine.execCntArm s
  | .cntExpired => Sys2Proof.Machine.execCntExpired s
  | .cntTicks => Sys2Proof.Machine.execCntTicks s
  | .etArm => Sys2Proof.Machine.execEtArm s
  | .etMeasure level sel => Sys2Proof.Machine.execEtMeasure level sel s
  | .etCount => Sys2Proof.Machine.execEtCount s
  | .pcClassify => Sys2Proof.Machine.execPcClassify s
  | .faClear len => Sys2Proof.Machine.execFaClear len s
  | .faPush bit => Sys2Proof.Machine.execFaPush bit s
  | .faPack start => Sys2Proof.Machine.execFaPack start s
  | .dhtAcquire => Sys2Proof.Machine.execDhtAcquire s
  | .dhtReadTemp => Sys2Proof.Machine.execDhtReadTemp s
  | .dhtReadHum => Sys2Proof.Machine.execDhtReadHum s
  | .irAvail => Sys2Proof.Machine.execIrAvail s
  | .irWait => Sys2Proof.Machine.execIrWait s
  | .irReadCmd => Sys2Proof.Machine.execIrReadCmd s
  | .irReadAddr => Sys2Proof.Machine.execIrReadAddr s
  | .irEdge => Sys2Proof.Machine.execIrEdge s
  | .irClrEdge => Sys2Proof.Machine.execIrClrEdge s

end Sys2Proof.Machine
end

