-- ==== Sys2Proof/Machine/Engine.lean ====
section
/-! DEFINITION. What the engine does in one step while `busy = 1`, and what the command port does while
`busy = 0` (30_encoding.md R62, 70_reset_and_hazards.md R155; log 4). -/

namespace Sys2Proof.Machine

open Sys2Proof

/-- One step of the running `IR_WAIT` or, when `ir_state` rests, of the running `ET_MEASURE`. -/
def irStep (s : State) : Host.Outcome State Fault Refusal :=
  match s.irState with
  | .sampleLow n => .next (irSampleLow n s)
  | .sampleHigh n => .next (irSampleHigh n s)
  | .validating => irValidate s
  | .idle => .next (measureStep s)
  | .startDetected => .next (measureStep s)
  | .done => .next (measureStep s)
  | .failed => .next (measureStep s)

/-- One step of the running blocking operation: a tick passes, or one transition of no tick is taken. -/
def engineStep (s : State) : Host.Outcome State Fault Refusal :=
  match s.dhtState with
  | .startLow => .next (dhtStartLow s)
  | .startHigh => .next (dhtStartHigh s)
  | .await p => .next (dhtAwait p s)
  | .sampleLow n => .next (dhtSampleLow n s)
  | .sampleHigh n => .next (dhtSampleHigh n s)
  | .validating => dhtValidate s
  | .idle => irStep s
  | .done => irStep s
  | .failed => irStep s

/-- The state in which an accepted command runs: the port moves on and the wide operands are sampled
(30_encoding.md R62). -/
def sampleCommand (dinA dinB : Nat) (rest : List HostEvent) (s : State) : State :=
  { s with env := { s.env with host := rest, dinA := dinA, dinB := dinB } }

/-- An accepted command word: the operation it selects runs, a reserved word is answered with `rsp_ill = 1`
(30_encoding.md R66, R70). -/
def runCommand (w : Command) (s : State) : Host.Outcome State Fault Refusal :=
  match decode w with
  | .ok i => exec i s
  | .error _ => .next (refuse s)

/-- The host lets one tick pass with the port open. -/
def idleTick (rest : List HostEvent) (s : State) : State :=
  letTickPass { s with env := { s.env with host := rest } }

/-- One step with the port ready. -/
def portStep (s : State) : Host.Outcome State Fault Refusal :=
  match s.env.host with
  | [] => .next (idleTick [] s)
  | .idle :: rest => .next (idleTick rest s)
  | .command w dinA dinB :: rest => runCommand w (sampleCommand dinA dinB rest s)

/-- One step of the block. `rst` comes first, at any tick (70_reset_and_hazards.md R155). -/
def blockStep (s : State) : Host.Outcome State Fault Refusal :=
  if rstNow s.env then .next (applyReset s)
  else if s.busy then engineStep s
  else portStep s

/-- `rst` low at the current tick; later ticks as they were. -/
def lowerRst : List Bool → List Bool
  | [] => []
  | _ :: rest => false :: rest

/-- Present a word on the command port, ahead of what the host does next, with the port ready. -/
def presentWord (s : State) (w : Command) : State :=
  { s with
    busy := false
    env := { s.env with
      rstWave := lowerRst s.env.rstWave
      host := .command w s.env.dinA s.env.dinB :: s.env.host } }

end Sys2Proof.Machine
end

