-- ==== Sys2Proof/Machine/Step.lean ====
section
/-! DEFINITION. One step of the machine, and how a word is put where the next step takes it from. -/

namespace Sys2Proof.Machine

open Sys2Proof

/-- One step: a tick passes, a command is accepted, or the engine takes one transition of no tick (log 4). -/
def step (s : State) : Host.Outcome State Fault Refusal := blockStep s

/-- `s` with the low `nbits` bits of `w` presented on the command port. A command is accepted only with
`busy = 0` and `rst = 0` (30_encoding.md R62), so both are set (log 14). -/
def State.withFetchWord (s : State) (nbits w : Nat) : State :=
  presentWord s (BitVec.ofNat 16 (w % 2 ^ nbits))

end Sys2Proof.Machine
end

