-- ==== Sys2Proof/Safety.lean ====
section
/-! DEFINITION. The terms claims are stated in: runs, what a line does from the current tick on, pulse trains,
and the invariant of the block. -/

namespace Sys2Proof.Machine

open Sys2Proof

/-! ### Runs -/

/-- `n` steps, stopping at the first fault or refusal. -/
def runSteps : Nat → State → Host.Outcome State Fault Refusal
  | 0, s => .next s
  | n + 1, s =>
    match step s with
    | .next t => runSteps n t
    | .fault f => .fault f
    | .refused r => .refused r

/-- `ops` executed one after the other with no tick between them. -/
def execAll : List Instr → State → Host.Outcome State Fault Refusal
  | [], s => .next s
  | i :: ops, s =>
    match exec i s with
    | .next t => execAll ops t
    | .fault f => .fault f
    | .refused r => .refused r

/-- `rst` is low at every tick from the current one on. -/
def noReset (e : Env) : Prop := ∀ i, e.rstWave.getD i false = false

/-- `Line(sel, now + i)` (00_scope.md R11). -/
def lineAhead (e : Env) (sel : Line) (i : Nat) : Bool :=
  match sel with
  | .sensor => e.dhtWave.getD i (Config.line .sensor (e.clock + i))
  | .receiver => e.irWave.getD i (Config.line .receiver (e.clock + i))

/-- Line `sel` holds `level` for the next `n` ticks, the current one among them. -/
def holdsFor (e : Env) (sel : Line) (level : Bool) (n : Nat) : Prop := ∀ i, i < n → lineAhead e sel i = level

/-- `r` is the run of `level` on line `sel` from the current tick (00_scope.md glossary). -/
def isRun (e : Env) (sel : Line) (level : Bool) (r : Nat) : Prop :=
  holdsFor e sel level r ∧ lineAhead e sel r ≠ level

/-- The environment after `n` ticks. -/
def envAfter (n : Nat) (e : Env) : Env :=
  { e with
    now := e.now + n, clock := e.clock + n
    dhtWave := e.dhtWave.drop n, irWave := e.irWave.drop n, rstWave := e.rstWave.drop n }

/-- `cnt` after `n` ticks with no write of `cnt` or `limit` (40_edgetimer.md R84). -/
def countAfter (n : Nat) (s : State) : Nat := if s.cnt < s.limit then min s.limit (s.cnt + n) else s.cnt

/-- The state after `n` ticks with nothing else happening. -/
def stateAfter (n : Nat) (s : State) : State := { s with cnt := countAfter n s, env := envAfter n s.env }

/-- `ET_MEASURE` is the running operation. -/
def measuring (s : State) : Bool := s.busy && s.dhtState.resting && s.irState.resting

/-! ### Pulse trains -/

/-- The levels of one interval: `lo` ticks at 0, then `hi` ticks at 1. -/
def intervalLevels (c : Nat × Nat) : List Bool := List.replicate c.1 false ++ List.replicate c.2 true

/-- The levels of a train of intervals. -/
def trainLevels (cells : List (Nat × Nat)) : List Bool := cells.flatMap intervalLevels

/-- The bits a train stands for: 1 exactly when the span at 1 is longer than the threshold. -/
def trainBits (threshold : Nat) (cells : List (Nat × Nat)) : List Bool :=
  cells.map fun c => decide (threshold < c.2)

/-- The ticks a train lasts. -/
def trainTicks (cells : List (Nat × Nat)) : Nat := (cells.map fun c => c.1 + c.2).sum

/-- The number whose bits, most significant first, are `bits`. -/
def numberOf (bits : List Bool) : Nat := bits.foldl (fun acc b => 2 * acc + b.toNat) 0

/-- The byte at positions `start` to `start + 7` of a frame that holds `bits` in arrival order. -/
def windowByte (bits : List Bool) (start : Nat) : Byte := BitVec.ofNat 8 (numberOf ((bits.drop start).take 8))

/-- The command byte of a remote frame under `ir_offset` (20_memory.md R46). -/
def windowCommand (bits : List Bool) (offset : Bool) : Byte :=
  if offset then BitVec.ofNat 8 (2 * numberOf ((bits.drop 17).take 7)) else windowByte bits 16

/-! ### The invariant -/

/-- The sensor line is in sense mode with `dht_out = 1` (10_state.md R23, 43_dht11.md R116). -/
def sensing (s : State) : Prop := s.dhtOe = false ∧ s.dhtOut = true

/-- A frame of length `len` of which `wr` positions are written, while the engine measures with the bound at
full scale. -/
def acquiring (len wr : Nat) (s : State) : Prop :=
  s.frameLen = len ∧ s.frameWr = wr ∧ s.limit = s.cfg.maxTicks ∧ s.cnt ≤ s.limit

/-- What holds in each value of `dht_state` (10_state.md R21, R23; 43_dht11.md R110 to R113). -/
def dhtPhase (s : State) : Prop :=
  match s.dhtState with
  | .startLow => s.dhtOe = true ∧ s.dhtOut = false ∧ s.limit = s.cfg.tStartLow ∧ s.cnt ≤ s.limit
  | .startHigh => s.dhtOe = true ∧ s.dhtOut = true ∧ s.limit = s.cfg.tStartHigh ∧ s.cnt ≤ s.limit
  | .await _ => sensing s ∧ acquiring 40 0 s
  | .sampleLow n => sensing s ∧ acquiring 40 n s
  | .sampleHigh n => sensing s ∧ acquiring 40 n s
  | .validating => sensing s ∧ acquiring 40 40 s
  | .idle => sensing s
  | .done => sensing s
  | .failed => sensing s

/-- What holds in each value of `ir_state` (10_state.md R24; 44_irremote.md R124, R125). -/
def irPhase (s : State) : Prop :=
  match s.irState with
  | .sampleLow n => acquiring 32 n s
  | .sampleHigh n => acquiring 32 n s
  | .validating => acquiring 32 32 s
  | .idle => True
  | .startDetected => True
  | .done => True
  | .failed => True

/-- The invariant of the block. -/
structure State.Inv (s : State) : Prop where
  /-- The registers of `W` bits hold `W` bits (10_state.md R15, R16, R28). -/
  cnt_lt : s.cnt < 2 ^ s.cfg.w
  limit_lt : s.limit < 2 ^ s.cfg.w
  edge_lt : s.irEdgeTicks < 2 ^ s.cfg.w
  /-- `frame_wr ≤ frame_len ≤ 40` (10_state.md R19). -/
  len_le : s.frameLen ≤ 40
  wr_le : s.frameWr ≤ s.frameLen
  /-- The frame space is in its canonical form. -/
  frame_wf : s.frame.wf = true
  /-- `ir_unread` and `ir_offset` are set together (44_irremote.md R129). -/
  unread_offset : s.irUnread = true → s.irOffset = true
  /-- `rsp_data` has `RW` bits; fields not presented are 0; a refused command presents only `rsp_ill`
  (30_encoding.md R60, R69, R70). -/
  rsp_lt : s.rsp.data < 2 ^ s.cfg.rw
  rsp_quiet : s.rsp.valid = false → s.rsp = .quiet
  rsp_ill : s.rsp.ill = true → s.rsp = illResponse
  /-- No response is presented while an operation runs (30_encoding.md R62). -/
  busy_quiet : s.busy = true → s.rsp = .quiet
  /-- Intermediate values exist only while `busy = 1`, and at most one acquisition is in flight
  (10_state.md R21, R24, R29). -/
  dht_busy : s.dhtState.resting = false → s.busy = true ∧ s.irState.resting = true
  ir_busy : s.irState.resting = false → s.busy = true ∧ s.dhtState.resting = true
  dht_phase : dhtPhase s
  ir_phase : irPhase s

end Sys2Proof.Machine
end

