-- ==== Sys2Proof/Certificates/Slice0/Obligations.lean ====
section
/-! DEFINITION. What is stated about the block, rule by rule. Responses are written out as
`⟨rsp_valid, rsp_data, rsp_flag, rsp_status, rsp_ill⟩`. -/

open Sys2Proof Sys2Proof.Machine

/-! ### Encoding (30_encoding.md R64 to R70) -/

/-- Every operation with an encoding decodes from its word (R65, R66): no operand bit is dropped. [the spec's
decisions D3] -/
def Obligations.DecodeOfEncodeIsIdentity : Prop :=
  ∀ i : Instr, i.wellFormed = true → decode (encode i) = .ok i

/-- Each word that is no reserved word stands for one operation, and that operation encodes to it (R66). [the
spec's decisions D3, D27] -/
def Obligations.EncodeOfDecodeIsIdentity : Prop :=
  ∀ (w : Command) (i : Instr), decode w = .ok i → i.wellFormed = true ∧ encode i = w

/-- The decoder answers an operation for exactly the words some row of R66 selects (all others are reserved,
R70), and the operation it answers is that of a row that selects the word. [the spec's decisions D3, D27] -/
def Obligations.DecoderFollowsOpcodeTable : Prop :=
  ∀ w : Command,
    ((∃ i, decode w = .ok i) ↔ ∃ r ∈ opcodeRows, r.selects w = true) ∧
    ∀ i, decode w = .ok i → ∃ r, opcodeRows[i.row]? = some r ∧ r.selects w = true

/-- No word selects two rows of R66. [the spec's decisions D3] -/
def Obligations.OpcodeRowsNeverOverlap : Prop :=
  ∀ (w : Command) (j k : Fin 20) (r q : OpcodeRow), opcodeRows[j.val]? = some r → opcodeRows[k.val]? = some q →
    r.selects w = true → q.selects w = true → j = k

/-- Words of the spec's own vectors (V-ENC-1 to V-ENC-8, P1, P3) decode as 95_test_vectors.md says. [the spec's
decisions D3, D27] -/
def Obligations.SpecWordsDecode : Prop :=
  decode 0x1103 = .ok (.etMeasure true .receiver) ∧ decode 0x1102 = .ok (.etMeasure false .receiver) ∧
  decode 0x3028 = .ok (.faClear 40) ∧ decode 0x3029 = .ok (.faClear 41) ∧
  decode 0x3218 = .ok (.faPack 24) ∧ decode 0x3101 = .ok (.faPush true) ∧
  decode 0x0100 = .ok .cntArm ∧ decode 0x2000 = .ok .pcClassify ∧ decode 0x4000 = .ok .dhtAcquire ∧
  decode 0x5100 = .ok .irWait ∧ decode 0x5500 = .ok .irClrEdge ∧
  decode 0x1104 = .error (.imm 4) ∧ decode 0x6000 = .error (.unit 6) ∧ decode 0x0400 = .error (.func 0 4) ∧
  decode 0x4300 = .error (.func 4 3) ∧ decode 0x5600 = .error (.func 5 6) ∧ decode 0x0001 = .error (.imm 1)

/-- The four statuses have the codes of R67, and different values of `dht_state` and of `ir_state` have
different codes (R68). [the spec's decisions D16, D17, D29] -/
def Obligations.CodesAreDistinct : Prop :=
  (Status.ok.code = 0 ∧ Status.timeoutError.code = 1 ∧ Status.checksumError.code = 2 ∧
    Status.overwriteError.code = 3) ∧ (∀ a b : DhtState, a.code = b.code → a = b) ∧
  (∀ a b : IrState, a.code = b.code → a = b)

/-! ### The step (30_encoding.md R62, R70; 00_scope.md R13; 70_reset_and_hazards.md R155) -/

/-- A presented command word that decodes to an operation, with the port ready, is accepted: the step is the
operation's `exec` in the state in which the host has moved on and `din_a`, `din_b` are sampled (R62). [the
spec's decisions D2, D3; the model's conventions: log 4, 6] -/
def Obligations.StepRunsDecodedCommand : Prop :=
  ∀ (s : State) (w : Command) (a b : Nat) (rest : List HostEvent) (i : Instr),
    rstNow s.env = false → s.busy = false → s.env.host = .command w a b :: rest → decode w = .ok i →
    step s = exec i { s with env := { s.env with host := rest, dinA := a, dinB := b } }

/-- A presented reserved word changes no state, lets no tick pass and is answered with `rsp_ill = 1` and every
other response field 0 (R70). [the spec's decisions D2, D3, D27; the model's conventions: log 4, 6, 8] -/
def Obligations.ReservedWordAnswersIll : Prop :=
  ∀ (s : State) (w : Command) (a b : Nat) (rest : List HostEvent),
    rstNow s.env = false → s.busy = false → s.env.host = .command w a b :: rest →
    (∀ r ∈ opcodeRows, r.selects w = false) →
    step s = .next { s with
      rsp := ⟨true, 0, false, .ok, true⟩
      env := { s.env with host := rest, dinA := a, dinB := b } }

/-- While `busy = 1` no command is accepted: the host's next events and the sampled operands stay as they are
(R62). [the spec's decisions D2; the model's conventions: log 4, 6] -/
def Obligations.BusyPortAcceptsNothing : Prop :=
  ∀ s t : State, rstNow s.env = false → s.busy = true → step s = .next t →
    t.env.host = s.env.host ∧ t.env.dinA = s.env.dinA ∧ t.env.dinB = s.env.dinB

/-- With the port ready and nothing presented, exactly one tick passes and only the tick rule acts (R13, R80).
[the spec's decisions D2, D5, D9; the model's conventions: log 4, 6] -/
def Obligations.IdleHostLetsOneTickPass : Prop :=
  ∀ (s : State) (rest : List HostEvent), rstNow s.env = false → s.busy = false →
    (s.env.host = .idle :: rest ∨ (s.env.host = [] ∧ rest = [])) →
    step s = .next { s with
      cnt := if s.cnt < s.limit then s.cnt + 1 else s.cnt
      rsp := ⟨false, 0, false, .ok, false⟩
      env := { envAfter 1 s.env with host := rest } }

/-- At a tick with `rst = 1`, whatever is in flight, every register takes the value of 70_reset_and_hazards.md
R156, no response is presented, no command is accepted, and the tick index starts again at 0 (R155). The five
stored bytes are 0x00 by the spec's decision D18; no other statement rests on them (log 10). [the spec's
decisions D4, D12, D13, D18, D28; the model's conventions: log 4, 7, 10] -/
def Obligations.ResetTakesEveryRegister : Prop :=
  ∀ s : State, rstNow s.env = true → ∃ t, step s = .next t ∧
    t.cfg = s.cfg ∧ t.cnt = 0 ∧ t.limit = 2 ^ s.cfg.w - 1 ∧ expired t = false ∧
    t.frameLen = 0 ∧ t.frameWr = 0 ∧
    t.dhtState = .idle ∧ t.dhtHum = 0x00 ∧ t.dhtTemp = 0x00 ∧ t.dhtPar = 0x00 ∧
    t.dhtOe = false ∧ t.dhtOut = true ∧
    t.irState = .idle ∧ t.irOffset = false ∧ t.irUnread = false ∧ t.irAddr = 0x00 ∧ t.irCmd = 0x00 ∧
    t.irEdgeTicks = 0 ∧ t.busy = false ∧ t.rsp = ⟨false, 0, false, .ok, false⟩ ∧
    t.env.now = 0 ∧ t.env.host = s.env.host

/-! ### The counter and the EdgeTimer (40_edgetimer.md) -/

/-- `n` ticks with no write of `cnt` or `limit` between them: a count below the bound becomes `min (limit, cnt +
n)`, one at or above it stays; nothing else of the block changes (R80, R84). [the spec's decisions D5, D6] -/
def Obligations.TicksCountUpToTheBound : Prop :=
  ∀ (n : Nat) (s : State), Nat.iterate State.tick n s = { s with
    cnt := if s.cnt < s.limit then min s.limit (s.cnt + n) else s.cnt
    env := envAfter n s.env }

/-- `CNT_RESET` and `CNT_ARM`: one register each, everything else unchanged (R81, R82). [the spec's decisions
D2, D3, D5, D6; the model's conventions: log 3, 4] -/
def Obligations.CounterWritesOneRegister : Prop :=
  decode 0x0000 = .ok .cntReset ∧ decode 0x0100 = .ok .cntArm ∧ ∀ s : State,
    exec .cntReset s = .next { s with cnt := 0, rsp := ⟨true, 0, false, .ok, false⟩ } ∧
    exec .cntArm s = .next { s with limit := s.env.dinA % 2 ^ s.cfg.w, rsp := ⟨true, 0, false, .ok, false⟩ }

/-- `CNT_EXPIRED` and `CNT_TICKS` write nothing and answer the condition or the count; a `CNT_TICKS` that comes
`n` ticks later, with no write of `cnt` or `limit` between, answers `min (limit, cnt + n)` below the bound and
`cnt` at or above it (R83, R84). [the spec's decisions D2, D3, D5, D6; the model's conventions: log 4] -/
def Obligations.CounterReadsWriteNothing : Prop :=
  decode 0x0200 = .ok .cntExpired ∧ decode 0x0300 = .ok .cntTicks ∧ ∀ s : State,
    exec .cntExpired s =
      .next { s with rsp := ⟨true, if s.limit ≤ s.cnt then 1 else 0, false, .ok, false⟩ } ∧
    exec .cntTicks s = .next { s with rsp := ⟨true, s.cnt, false, .ok, false⟩ } ∧
    ∀ n, ∃ t, exec .cntTicks (Nat.iterate State.tick n s) = .next t ∧
      t.rsp.data = if s.cnt < s.limit then min s.limit (s.cnt + n) else s.cnt

/-- `ET_ARM` zeroes the counter, bounds it by full scale, clears the expired condition and writes nothing else;
a counter that had stopped counts again at the next tick (R85). [the spec's decisions D2, D3, D4, D12, D13; the
model's conventions: log 4] -/
def Obligations.EtArmRestartsTheCounter : Prop :=
  decode 0x1000 = .ok .etArm ∧ ∀ s : State, ∃ t,
    exec .etArm s = .next t ∧
    t = { s with cnt := 0, limit := 2 ^ s.cfg.w - 1, rsp := ⟨true, 0, false, .ok, false⟩ } ∧
    expired t = false ∧ t.tick.cnt = 1

/-- `ET_COUNT` answers the count at once, writes nothing, and has the effect of `CNT_TICKS` (R89). [the spec's
decisions D2, D3, D6; the model's conventions: log 4] -/
def Obligations.EtCountReadsTheCounter : Prop :=
  decode 0x1200 = .ok .etCount ∧ ∀ s : State,
    exec .etCount s = .next { s with rsp := ⟨true, s.cnt, false, .ok, false⟩ } ∧
    exec .etCount s = exec .cntTicks s

/-- `ET_MEASURE` at acceptance: `busy <- 1`, the operands are held, no response yet, no tick (R86,
30_encoding.md R62). [the spec's decisions D2, D7, D8, D10; the model's conventions: log 4] -/
def Obligations.EtMeasureIsAccepted : Prop :=
  ∀ (s : State) (level : Bool) (sel : Line),
    exec (.etMeasure level sel) s = .next { s with
      busy := true, measLevel := level, measSel := sel, rsp := ⟨false, 0, false, .ok, false⟩ }

/-- `ET_MEASURE` in closed form (R87): with `c0 = cnt`, `r` the run of `level` from the tick of acceptance and
`d = limit − c0`, it lets exactly `n` ticks pass and returns `(ticks, timeout)` with `cnt = ticks`. A tie (`r =
d`) is a timeout. The protocol machines rest at acceptance, as they do whenever `busy = 0`. [the spec's
decisions D7, D8, D9, D10; derived in the spec: R87; the model's conventions: log 4, 5] -/
def Obligations.EtMeasureClosedForm : Prop :=
  ∀ (s : State) (level : Bool) (sel : Line) (t : State),
    s.dhtState.resting = true → s.irState.resting = true → noReset s.env →
    exec (.etMeasure level sel) s = .next t →
    (s.limit ≤ s.cnt →
      runSteps 1 t = .next { t with busy := false, rsp := ⟨true, s.cnt, true, .ok, false⟩ }) ∧
    (∀ r, s.cnt < s.limit → isRun s.env sel level r → r < s.limit - s.cnt →
      runSteps (r + 1) t = .next { t with
        cnt := s.cnt + r, busy := false, rsp := ⟨true, s.cnt + r, false, .ok, false⟩
        env := envAfter r s.env }) ∧
    (s.cnt < s.limit → holdsFor s.env sel level (s.limit - s.cnt) →
      runSteps (s.limit - s.cnt + 1) t = .next { t with
        cnt := s.limit, busy := false, rsp := ⟨true, s.limit, true, .ok, false⟩
        env := envAfter (s.limit - s.cnt) s.env })

/-- `ET_MEASURE` always returns, after at most `limit − cnt` ticks, and without a timeout only with fewer than
`limit` ticks (R88). [the spec's decisions D7, D8; derived in the spec: R87, R88; the model's conventions: log
4, 5] -/
def Obligations.EtMeasureAlwaysReturns : Prop :=
  ∀ (s : State) (level : Bool) (sel : Line) (t : State),
    s.dhtState.resting = true → s.irState.resting = true → noReset s.env →
    exec (.etMeasure level sel) s = .next t →
    ∃ n u, n ≤ s.limit - s.cnt ∧ runSteps (n + 1) t = .next u ∧ u.busy = false ∧ u.rsp.valid = true ∧
      u.env.now = s.env.now + n ∧ u.rsp.data = u.cnt ∧ (u.rsp.flag = false → u.rsp.data < s.limit)

/-! ### The PulseClassifier (41_pulseclassifier.md) -/

/-- `PC_CLASSIFY` answers 1 exactly when `din_a > din_b` as `W`-bit numbers and writes nothing (R95). [the
spec's decisions D2, D3, D11; the model's conventions: log 3, 4] -/
def Obligations.PcClassifyComparesItsOperands : Prop :=
  ∀ s : State, exec .pcClassify s = .next { s with
    rsp := ⟨true, if s.env.dinA % 2 ^ s.cfg.w > s.env.dinB % 2 ^ s.cfg.w then 1 else 0, false, .ok, false⟩ }

/-- The corner cases of `classify` (R96). [the spec's decisions D11; derived in the spec: R96] -/
def Obligations.ClassifyCornerCases : Prop :=
  ∀ (c : Config) (t : Nat), t < 2 ^ c.w →
    classify t t = false ∧ (t < 2 ^ c.w - 1 → classify (t + 1) t = true) ∧
    (1 ≤ t → classify (t - 1) t = false) ∧ classify 0 t = false ∧
    classify t (2 ^ c.w - 1) = false ∧ (classify t 0 = true ↔ 1 ≤ t) ∧
    ∀ a b : Nat, a ≤ b → (classify a t).toNat ≤ (classify b t).toNat

/-! ### The FrameAssembler (42_frameassembler.md) -/

/-- `FA_CLEAR N` begins a frame of length `N` for `1 ≤ N ≤ 40` and is refused otherwise (R101, 30_encoding.md
R70). [the spec's decisions D2, D3, D14, D15, D27; the model's conventions: log 4, 8] -/
def Obligations.FaClearBeginsAFrame : Prop :=
  ∀ (s : State) (len : Nat),
    (1 ≤ len → len ≤ 40 → exec (.faClear len) s = .next { s with
      frameLen := len, frameWr := 0, rsp := ⟨true, 0, false, .ok, false⟩ }) ∧
    (len = 0 ∨ 40 < len → exec (.faClear len) s = .next { s with rsp := ⟨true, 0, false, .ok, true⟩ })

/-- `FA_PUSH b` with room in a frame of at most 40 positions: position `frame_wr` reads `b`, every other
position reads as before, `frame_wr` moves on, and nothing else changes; with no room it is refused (R102). [the
spec's decisions D2, D14, D15, D27; the model's conventions: log 4, 8, 9] -/
def Obligations.FaPushAppendsOneBit : Prop :=
  ∀ (s : State) (b : Bool),
    (s.frameWr < s.frameLen → s.frameLen ≤ 40 → ∃ t, exec (.faPush b) s = .next t ∧
      t = { s with
        frame := t.frame, frameWr := s.frameWr + 1, rsp := ⟨true, 0, false, .ok, false⟩ } ∧
      t.frame.readBit s.frameWr = .ok b ∧
      ∀ p, p ≠ s.frameWr → t.frame.readBit p = s.frame.readBit p) ∧
    (s.frameLen ≤ s.frameWr → exec (.faPush b) s = .next { s with rsp := ⟨true, 0, false, .ok, true⟩ })

/-- `FA_PACK s` on a window inside a fully populated frame answers the sum of R100 and writes nothing; otherwise
it is refused (R103). [the spec's decisions D2, D14, D15, D27; the model's conventions: log 4, 8, 9] -/
def Obligations.FaPackReadsOneWindow : Prop :=
  ∀ (s : State) (start : Nat),
    (∀ b : Fin 8 → Bool, 1 ≤ s.frameLen → s.frameWr = s.frameLen → start + 7 ≤ s.frameLen - 1 →
      (∀ i : Fin 8, s.frame.readBit (start + i.val) = .ok (b i)) →
      exec (.faPack start) s = .next { s with
        rsp := ⟨true,
          (b 0).toNat * 128 + (b 1).toNat * 64 + (b 2).toNat * 32 + (b 3).toNat * 16 +
            (b 4).toNat * 8 + (b 5).toNat * 4 + (b 6).toNat * 2 + (b 7).toNat,
          false, .ok, false⟩ }) ∧
    (s.frameLen = 0 ∨ s.frameWr ≠ s.frameLen ∨ s.frameLen - 1 < start + 7 →
      exec (.faPack start) s = .next { s with rsp := ⟨true, 0, false, .ok, true⟩ })

/-- `MemRead(p, n)`: the `n`-bit number whose most significant bit is position `p` (R43). -/
def Obligations.MemReadSumsItsPositions : Prop :=
  ∀ (m : Memory) (p n : Nat) (b : Nat → Bool), 1 ≤ n → n ≤ 8 → p + n ≤ 40 →
    (∀ i, i < n → m.readBit (p + i) = .ok (b i)) →
    m.read p n = .ok (∑ i ∈ Finset.range n, (b i).toNat * 2 ^ (n - 1 - i)) ∧
    ∑ i ∈ Finset.range n, (b i).toNat * 2 ^ (n - 1 - i) < 2 ^ n

/-- The three windows of a sensor frame: humidity, temperature and parity are positions 0 to 7, 16 to 23 and 32
to 39, and the packet is the same whatever the padding positions hold (R45). -/
def Obligations.SensorWindowsSkipPadding : Prop :=
  ∀ (m : Memory) (b : Nat → Bool),
    (∀ p, p < 8 ∨ 16 ≤ p ∧ p < 24 ∨ 32 ≤ p ∧ p < 40 → m.readBit p = .ok (b p)) →
    ∃ k, m.sensorPacket = .ok k ∧
      k.hum.toNat = ∑ i ∈ Finset.range 8, (b i).toNat * 2 ^ (7 - i) ∧
      k.temp.toNat = ∑ i ∈ Finset.range 8, (b (16 + i)).toNat * 2 ^ (7 - i) ∧
      k.par.toNat = ∑ i ∈ Finset.range 8, (b (32 + i)).toNat * 2 ^ (7 - i)

/-- The two windows of a remote frame under `ir_offset`: positions 0 to 7 and 16 to 23, or positions 1 to 8 and
17 to 23 with value bit 0 of the command 0; nothing else of the frame matters (R46). [the spec's decisions D22] -/
def Obligations.RemoteWindowsFollowOffset : Prop :=
  ∀ (m : Memory) (b : Nat → Bool), (∀ p, p < 9 ∨ 16 ≤ p ∧ p < 24 → m.readBit p = .ok (b p)) →
    (∃ k, m.remoteCommand false = .ok k ∧
      k.addr.toNat = ∑ i ∈ Finset.range 8, (b i).toNat * 2 ^ (7 - i) ∧
      k.cmd.toNat = ∑ i ∈ Finset.range 8, (b (16 + i)).toNat * 2 ^ (7 - i)) ∧
    (∃ k, m.remoteCommand true = .ok k ∧
      k.addr.toNat = ∑ i ∈ Finset.range 8, (b (1 + i)).toNat * 2 ^ (7 - i) ∧
      k.cmd.toNat = ∑ i ∈ Finset.range 7, (b (17 + i)).toNat * 2 ^ (7 - i))

/-- The frame grows by appending only (R42): in a state of the invariant and without `rst`, a step leaves every
position as it is, with `frame_wr` kept or restarted at 0, or it writes the one position `frame_wr < frame_len`
and moves `frame_wr` on by one. [the spec's decisions D14; the model's conventions: log 4, 9] -/
def Obligations.FrameGrowsByAppending : Prop :=
  ∀ s t : State, s.Inv → rstNow s.env = false → step s = .next t →
    (t.frame = s.frame ∧ (t.frameWr = s.frameWr ∨ t.frameWr = 0)) ∨
    (s.frameWr < s.frameLen ∧ t.frameLen = s.frameLen ∧ t.frameWr = s.frameWr + 1 ∧
      (∃ b, t.frame.readBit s.frameWr = .ok b) ∧
      ∀ p, p ≠ s.frameWr → t.frame.readBit p = s.frame.readBit p)

/-- `pack8(s)` of a window whose eight positions read is the byte with the first position most significant
(R100). -/
def Obligations.PackWeighsItsBits : Prop :=
  ∀ (m : Memory) (start : Nat) (b : Fin 8 → Bool), (∀ i : Fin 8, m.readBit (start + i.val) = .ok (b i)) →
    ∃ v : Byte, m.pack8 start = .ok v ∧
      v.toNat = (b 0).toNat * 128 + (b 1).toNat * 64 + (b 2).toNat * 32 + (b 3).toNat * 16 +
        (b 4).toNat * 8 + (b 5).toNat * 4 + (b 6).toNat * 2 + (b 7).toNat

/-- `pack8` is the shifter of R104: the two readings of a window agree on every frame, stops included. [derived
in the spec: R104; the model's conventions: log 9] -/
def Obligations.PackingEqualsShifter : Prop :=
  ∀ (m : Memory) (start : Nat), m.pack8 start = m.shiftIn 0 start 8

/-- A frame begun with `FA_CLEAR N` and filled with `N` pushes answers every window of the pushed bits, first
bit most significant, aligned or not (R100 to R103, 20_memory.md R44, R47). [the spec's decisions D14, D15; the
model's conventions: log 4, 9] -/
def Obligations.PushedFramePacksItsBits : Prop :=
  ∀ (s : State) (bits : List Bool), 1 ≤ bits.length → bits.length ≤ 40 →
    ∃ t, execAll (.faClear bits.length :: bits.map .faPush) s = .next t ∧
      t.frameLen = bits.length ∧ t.frameWr = bits.length ∧
      ∀ start, start + 8 ≤ bits.length →
        exec (.faPack start) t = .next { t with
          rsp := ⟨true, (windowByte bits start).toNat, false, .ok, false⟩ }

/-! ### The sensor protocol (43_dht11.md) -/

/-- `DHT_ACQUIRE` at acceptance, the same from every state: the port closes, the line is driven low, the counter
times the first window, and nothing else changes (R108, R109, R110). [the spec's decisions D7, D13, D14, D17;
the model's conventions: log 4] -/
def Obligations.DhtAcquireIsAccepted : Prop :=
  ∀ s : State, exec .dhtAcquire s = .next { s with
    busy := true, dhtState := .startLow, dhtOe := true, dhtOut := false
    cnt := 0, limit := s.cfg.tStartLow, rsp := ⟨false, 0, false, .ok, false⟩ }

/-- The start handshake (R110 to R112): for the first `T_START_LOW` ticks the line is driven to 0, for the next
`T_START_HIGH` to 1, and then it is in sense mode with a frame of 40 begun and phase 0 armed. Each window ends
with one transition of no tick. [the spec's decisions D13; derived in the spec: R112, R91; the model's
conventions: log 4] -/
def Obligations.DhtStartWindowsDriveTheLine : Prop :=
  ∀ s t : State, noReset s.env → exec .dhtAcquire s = .next t →
    (∀ k, k ≤ s.cfg.tStartLow → ∃ u, runSteps k t = .next u ∧ u.env.now = s.env.now + k ∧
      u.dhtState = .startLow ∧ u.dhtOe = true ∧ u.dhtOut = false) ∧
    (∀ k, k ≤ s.cfg.tStartHigh → ∃ u, runSteps (s.cfg.tStartLow + 1 + k) t = .next u ∧
      u.env.now = s.env.now + s.cfg.tStartLow + k ∧
      u.dhtState = .startHigh ∧ u.dhtOe = true ∧ u.dhtOut = true) ∧
    ∃ u, runSteps (s.cfg.tStartLow + 1 + s.cfg.tStartHigh + 1) t = .next u ∧
      u.env.now = s.env.now + s.cfg.tStartLow + s.cfg.tStartHigh ∧
      u.dhtState = .await 0 ∧ u.dhtOe = false ∧ u.frameLen = 40 ∧ u.frameWr = 0 ∧
      u.cnt = 0 ∧ u.limit = s.cfg.maxTicks

/-- One poll of handshake phase `p` before its bound: at the phase's level (1 for phases 1 and 3) a tick passes;
away from it the next phase, or after phase 3 the first separator, is armed in no tick (R112). [the spec's
decisions D7, D8, D10; derived in the spec: R112; the model's conventions: log 4, 5] -/
def Obligations.DhtPhaseFollowsTheLine : Prop :=
  ∀ (s : State) (p : Fin 4), rstNow s.env = false → s.busy = true → s.dhtState = .await p → s.cnt < s.limit →
    (lineNow s.env .sensor = decide (p.val = 1 ∨ p.val = 3) →
      step s = .next { s with
        cnt := s.cnt + 1, rsp := ⟨false, 0, false, .ok, false⟩, env := envAfter 1 s.env }) ∧
    (lineNow s.env .sensor ≠ decide (p.val = 1 ∨ p.val = 3) → ∃ d, step s = .next { s with
        dhtState := d, cnt := 0, limit := s.cfg.maxTicks, rsp := ⟨false, 0, false, .ok, false⟩ } ∧
      (∀ q : Fin 4, q.val = p.val + 1 → d = .await q) ∧ (p.val = 3 → d = .sampleLow 0))

/-- One poll of the two measurements of bit cell `n` before their bound (R113): at the measured level (0 for the
separator, 1 for the high span) a tick passes and nothing else changes; away from it the separator's count is
discarded; the high span's is classified with `THRESH_DHT` into position `n`, every other position reads as
before, and cell `n + 1` is armed or, after cell 39, the frame is validated. [the spec's decisions D7, D8, D10,
D12; the model's conventions: log 4, 5, 9] -/
def Obligations.DhtCellStoresItsBit : Prop :=
  ∀ (s : State) (n : Fin 40), rstNow s.env = false → s.busy = true → s.cnt < s.limit →
    (s.dhtState = .sampleLow n ∧ lineNow s.env .sensor = false ∨
        s.dhtState = .sampleHigh n ∧ lineNow s.env .sensor = true →
      step s = .next { s with
        cnt := s.cnt + 1, rsp := ⟨false, 0, false, .ok, false⟩, env := envAfter 1 s.env }) ∧
    (s.dhtState = .sampleLow n → lineNow s.env .sensor = true →
      step s = .next { s with
        dhtState := .sampleHigh n, cnt := 0, limit := s.cfg.maxTicks
        rsp := ⟨false, 0, false, .ok, false⟩ }) ∧
    (s.dhtState = .sampleHigh n → lineNow s.env .sensor = false → ∃ t, step s = .next t ∧
      t = { s with
        dhtState := t.dhtState, cnt := t.cnt, limit := t.limit, frame := t.frame, frameWr := n.val + 1
        rsp := ⟨false, 0, false, .ok, false⟩ } ∧
      t.frame.readBit n.val = .ok (decide (s.cfg.threshDht < s.cnt)) ∧
      (∀ p, p ≠ n.val → t.frame.readBit p = s.frame.readBit p) ∧
      (∀ m : Fin 40, m.val = n.val + 1 →
        t.dhtState = .sampleLow m ∧ t.cnt = 0 ∧ t.limit = s.cfg.maxTicks) ∧
      (n.val = 39 → t.dhtState = .validating ∧ t.cnt = s.cnt ∧ t.limit = s.limit))

/-- `Validating` (R114 to R116): with the three windows of the frame, the 8-bit sum decides between `Done` with
the packet stored and `ChecksumError` with every byte kept; no tick passes and the frame is discarded. [the
spec's decisions D2; the model's conventions: log 4, 9] -/
def Obligations.DhtValidationChecksTheSum : Prop :=
  ∀ (s : State) (hum temp par : Byte), rstNow s.env = false → s.busy = true → s.dhtState = .validating →
    s.frame.pack8 0 = .ok hum → s.frame.pack8 16 = .ok temp → s.frame.pack8 32 = .ok par →
    ((temp.toNat + hum.toNat) % 256 = par.toNat → step s = .next { s with
      frameLen := 0, frameWr := 0, dhtHum := hum, dhtTemp := temp, dhtPar := par, dhtState := .done
      busy := false, rsp := ⟨true, 0, false, .ok, false⟩ }) ∧
    ((temp.toNat + hum.toNat) % 256 ≠ par.toNat → step s = .next { s with
      frameLen := 0, frameWr := 0, dhtState := .failed
      busy := false, rsp := ⟨true, 0, false, .checksumError, false⟩ })

/-- The whole of `DHT_ACQUIRE` on any pulse train (R108, R112 to R116, R119): whatever the line does in the
start windows (`pre`), a handshake of four phases and 40 bit cells, each span shorter than full scale, is
decoded in exactly the ticks it lasts; the status is `Ok` with the decoded bytes stored or `ChecksumError` with
the old bytes kept, by the sum of the decoded bytes. Phase 0 may have no length. [the spec's decisions D7, D13,
D14, D17; derived in the spec: R112, R119; the model's conventions: log 4, 5] -/
def Obligations.DhtAcquireDecodesPulseTrain : Prop :=
  ∀ (s t : State) (h0 h1 h2 h3 : Nat) (cells : List (Nat × Nat)) (pre rest : List Bool),
    noReset s.env → pre.length = s.cfg.tStartLow + s.cfg.tStartHigh →
    h0 < s.cfg.maxTicks → 1 ≤ h1 → h1 < s.cfg.maxTicks → 1 ≤ h2 → h2 < s.cfg.maxTicks →
    1 ≤ h3 → h3 < s.cfg.maxTicks → cells.length = 40 →
    (∀ c ∈ cells, 1 ≤ c.1 ∧ c.1 < s.cfg.maxTicks ∧ 1 ≤ c.2 ∧ c.2 < s.cfg.maxTicks) →
    s.env.dhtWave = pre ++ (trainLevels ((h0, h1) :: (h2, h3) :: cells) ++ false :: rest) →
    exec .dhtAcquire s = .next t →
    ∃ n u, runSteps n t = .next u ∧ u.busy = false ∧
      u.env.now = s.env.now + s.cfg.tStartLow + s.cfg.tStartHigh +
        trainTicks ((h0, h1) :: (h2, h3) :: cells) ∧
      u.frameLen = 0 ∧ u.frameWr = 0 ∧ u.dhtOe = false ∧ u.dhtOut = true ∧ u.limit = s.cfg.maxTicks ∧
      (windowByte (trainBits s.cfg.threshDht cells) 16 + windowByte (trainBits s.cfg.threshDht cells) 0 =
          windowByte (trainBits s.cfg.threshDht cells) 32 →
        u.dhtState = .done ∧ u.rsp = ⟨true, 0, false, .ok, false⟩ ∧
        u.dhtHum = windowByte (trainBits s.cfg.threshDht cells) 0 ∧
        u.dhtTemp = windowByte (trainBits s.cfg.threshDht cells) 16 ∧
        u.dhtPar = windowByte (trainBits s.cfg.threshDht cells) 32) ∧
      (windowByte (trainBits s.cfg.threshDht cells) 16 + windowByte (trainBits s.cfg.threshDht cells) 0 ≠
          windowByte (trainBits s.cfg.threshDht cells) 32 →
        u.dhtState = .failed ∧ u.rsp = ⟨true, 0, false, .checksumError, false⟩ ∧
        u.dhtHum = s.dhtHum ∧ u.dhtTemp = s.dhtTemp ∧ u.dhtPar = s.dhtPar)

/-- `DHT_READ_TEMP` and `DHT_READ_HUM` answer the stored byte and write nothing (R117, R118). [the spec's
decisions D2; the model's conventions: log 4] -/
def Obligations.DhtReadsWriteNothing : Prop :=
  ∀ s : State,
    exec .dhtReadTemp s = .next { s with rsp := ⟨true, s.dhtTemp.toNat, false, .ok, false⟩ } ∧
    exec .dhtReadHum s = .next { s with rsp := ⟨true, s.dhtHum.toNat, false, .ok, false⟩ }

/-- Without `rst`, the three stored sensor bytes change only in the step in which `DHT_ACQUIRE` returns `Ok`
(10_state.md R22, R116). [the spec's decisions D18; the model's conventions: log 4] -/
def Obligations.SensorBytesChangeOnlyOnOk : Prop :=
  ∀ s t : State, rstNow s.env = false → step s = .next t →
    ¬(t.dhtHum = s.dhtHum ∧ t.dhtTemp = s.dhtTemp ∧ t.dhtPar = s.dhtPar) →
    s.busy = true ∧ s.dhtState = .validating ∧ t.dhtState = .done ∧ t.busy = false ∧
      t.rsp = ⟨true, 0, false, .ok, false⟩

/-- A running `DHT_ACQUIRE` touches nothing of the remote protocol (R109). [the model's conventions: log 4] -/
def Obligations.SensorLeavesRemoteUntouched : Prop :=
  ∀ s t : State, rstNow s.env = false → s.busy = true → s.dhtState.resting = false → step s = .next t →
    t.irState = s.irState ∧ t.irOffset = s.irOffset ∧ t.irUnread = s.irUnread ∧ t.irAddr = s.irAddr ∧
      t.irCmd = s.irCmd ∧ t.irEdgeTicks = s.irEdgeTicks

/-- While the block drives the sensor line, the level on it has no effect: with any other levels on `dht_in` the
step is the same (30_encoding.md R63, R111). [the spec's decisions D9, D10, D13; the model's conventions: log 4,
5] -/
def Obligations.DrivenLineIsNotSampled : Prop :=
  ∀ (s t : State) (w : List Bool), s.Inv → s.dhtOe = true → step s = .next t →
    step { s with env := { s.env with dhtWave := w } } =
      .next { t with env := { t.env with
        dhtWave := if t.env.clock = s.env.clock then w else w.tail } }

/-! ### The remote protocol (44_irremote.md) -/

/-- `IR_EDGE` records the start of a frame and the count, and nothing else (R121). [the spec's decisions D2,
D25; the model's conventions: log 4, 12] -/
def Obligations.IrEdgeRecordsTheStart : Prop :=
  ∀ s : State, exec .irEdge s = .next { s with
    irState := .startDetected, irEdgeTicks := s.cnt, rsp := ⟨true, 0, false, .ok, false⟩ }

/-- `IR_CLR_EDGE` withdraws a recorded start and does nothing in any other value of `ir_state` (R122). [the
spec's decisions D2, D26; the model's conventions: log 4, 11] -/
def Obligations.IrClrEdgeWithdrawsTheStart : Prop :=
  ∀ s : State, exec .irClrEdge s = .next { s with
    irState := if s.irState = .startDetected then .idle else s.irState
    rsp := ⟨true, 0, false, .ok, false⟩ }

/-- `IR_AVAIL` answers whether a start of frame is recorded and writes nothing (R123). [the spec's decisions D2,
D31; the model's conventions: log 4] -/
def Obligations.IrAvailAnswersTheFlag : Prop :=
  ∀ s : State, exec .irAvail s = .next { s with
    rsp := ⟨true, if s.irState = .startDetected then 1 else 0, false, .ok, false⟩ }

/-- `IR_WAIT` in `StartDetected` is accepted: the port closes, a frame of 32 is begun, the mark of interval 0 is
armed, nothing else changes; elsewhere it is refused with no state change (R125, R126). [the spec's decisions
D19, D20, D21, D22, D23, D27; the model's conventions: log 4, 8] -/
def Obligations.IrWaitNeedsARecordedStart : Prop :=
  ∀ s : State,
    (s.irState = .startDetected → exec .irWait s = .next { s with
      busy := true, irState := .sampleLow 0, frameLen := 32, frameWr := 0
      cnt := 0, limit := s.cfg.maxTicks, rsp := ⟨false, 0, false, .ok, false⟩ }) ∧
    (s.irState ≠ .startDetected → exec .irWait s = .next { s with rsp := ⟨true, 0, false, .ok, true⟩ })

/-- One poll of the two measurements of interval `n` before their bound (R124): at the measured level (0 for the
mark, 1 for the space) a tick passes and nothing else changes; away from it the mark's count is discarded; the
space's is classified with `THRESH_IR` into position `n`, every other position reads as before, and interval `n
+ 1` is armed or, after interval 31, the frame is validated. [the spec's decisions D7, D8, D10, D12, D19, D25;
the model's conventions: log 4, 5, 9] -/
def Obligations.IrIntervalStoresItsBit : Prop :=
  ∀ (s : State) (n : Fin 32), rstNow s.env = false → s.busy = true → s.dhtState.resting = true →
    s.cnt < s.limit →
    (s.irState = .sampleLow n ∧ lineNow s.env .receiver = false ∨
        s.irState = .sampleHigh n ∧ lineNow s.env .receiver = true →
      step s = .next { s with
        cnt := s.cnt + 1, rsp := ⟨false, 0, false, .ok, false⟩, env := envAfter 1 s.env }) ∧
    (s.irState = .sampleLow n → lineNow s.env .receiver = true →
      step s = .next { s with
        irState := .sampleHigh n, cnt := 0, limit := s.cfg.maxTicks
        rsp := ⟨false, 0, false, .ok, false⟩ }) ∧
    (s.irState = .sampleHigh n → lineNow s.env .receiver = false → ∃ t, step s = .next t ∧
      t = { s with
        irState := t.irState, cnt := t.cnt, limit := t.limit, frame := t.frame, frameWr := n.val + 1
        rsp := ⟨false, 0, false, .ok, false⟩ } ∧
      t.frame.readBit n.val = .ok (decide (s.cfg.threshIr < s.cnt)) ∧
      (∀ p, p ≠ n.val → t.frame.readBit p = s.frame.readBit p) ∧
      (∀ m : Fin 32, m.val = n.val + 1 →
        t.irState = .sampleLow m ∧ t.cnt = 0 ∧ t.limit = s.cfg.maxTicks) ∧
      (n.val = 31 → t.irState = .validating ∧ t.cnt = s.cnt ∧ t.limit = s.limit))

/-- The two checks of `Validating`, in their order, and the three outcomes (R127 to R129): the windows are those
`ir_offset` selects; on an error the stored command, `ir_unread` and `ir_offset` are kept. [the spec's decisions
D21, D22, D23; the model's conventions: log 4, 9] -/
def Obligations.IrValidationOrdersItsChecks : Prop :=
  ∀ (s : State) (addr cmd : Byte), rstNow s.env = false → s.busy = true → s.dhtState.resting = true →
    s.irState = .validating →
    s.frame.pack8 (if s.irOffset then 1 else 0) = .ok addr →
    (if s.irOffset then ∃ v, s.frame.read 17 7 = .ok v ∧ cmd.toNat = 2 * v else s.frame.pack8 16 = .ok cmd) →
    (addr = 0xFF → step s = .next { s with
      frameLen := 0, frameWr := 0, irState := .failed
      busy := false, rsp := ⟨true, 0, false, .checksumError, false⟩ }) ∧
    (addr ≠ 0xFF → s.irUnread = true → step s = .next { s with
      frameLen := 0, frameWr := 0, irState := .failed
      busy := false, rsp := ⟨true, 0, false, .overwriteError, false⟩ }) ∧
    (addr ≠ 0xFF → s.irUnread = false → step s = .next { s with
      frameLen := 0, frameWr := 0, irAddr := addr, irCmd := cmd, irUnread := true, irOffset := true
      irState := .done, busy := false, rsp := ⟨true, 0, false, .ok, false⟩ })

/-- The whole of `IR_WAIT` on any pulse train (R124 to R129, R133): 32 intervals, each span shorter than full
scale, are decoded in exactly the ticks they last, and the status and the registers follow from the bytes in the
windows `ir_offset` selects. The first mark may have no length. [the spec's decisions D19, D20, D21, D22, D23;
derived in the spec: R133; the model's conventions: log 4, 5] -/
def Obligations.IrWaitDecodesPulseTrain : Prop :=
  ∀ (s t : State) (cells : List (Nat × Nat)) (rest : List Bool) (addr cmd : Byte),
    noReset s.env → s.dhtState.resting = true → s.irState = .startDetected → cells.length = 32 →
    (∀ c ∈ cells, c.1 < s.cfg.maxTicks ∧ 1 ≤ c.2 ∧ c.2 < s.cfg.maxTicks) → (∀ c ∈ cells.tail, 1 ≤ c.1) →
    s.env.irWave = trainLevels cells ++ false :: rest →
    addr = windowByte (trainBits s.cfg.threshIr cells) (if s.irOffset then 1 else 0) →
    cmd = windowCommand (trainBits s.cfg.threshIr cells) s.irOffset →
    exec .irWait s = .next t →
    ∃ n u, runSteps n t = .next u ∧ u.busy = false ∧ u.env.now = s.env.now + trainTicks cells ∧
      u.frameLen = 0 ∧ u.frameWr = 0 ∧ u.limit = s.cfg.maxTicks ∧
      (addr = 0xFF → u.irState = .failed ∧ u.rsp = ⟨true, 0, false, .checksumError, false⟩ ∧
        u.irAddr = s.irAddr ∧ u.irCmd = s.irCmd ∧ u.irUnread = s.irUnread ∧ u.irOffset = s.irOffset) ∧
      (addr ≠ 0xFF → s.irUnread = true →
        u.irState = .failed ∧ u.rsp = ⟨true, 0, false, .overwriteError, false⟩ ∧
        u.irAddr = s.irAddr ∧ u.irCmd = s.irCmd ∧ u.irUnread = true ∧ u.irOffset = s.irOffset) ∧
      (addr ≠ 0xFF → s.irUnread = false →
        u.irState = .done ∧ u.rsp = ⟨true, 0, false, .ok, false⟩ ∧
        u.irAddr = addr ∧ u.irCmd = cmd ∧ u.irUnread = true ∧ u.irOffset = true)

/-- `IR_READ_CMD` and `IR_READ_ADDR` answer the stored byte, clear `ir_unread` and write nothing else (R131,
R132). [the spec's decisions D2, D24; the model's conventions: log 4] -/
def Obligations.IrReadsClearUnread : Prop :=
  ∀ s : State,
    exec .irReadCmd s =
      .next { s with irUnread := false, rsp := ⟨true, s.irCmd.toNat, false, .ok, false⟩ } ∧
    exec .irReadAddr s =
      .next { s with irUnread := false, rsp := ⟨true, s.irAddr.toNat, false, .ok, false⟩ }

/-- Only `rst` clears `ir_offset`: once 1 it stays 1 (70_reset_and_hazards.md R157, 10_state.md R25). [the
spec's decisions D21] -/
def Obligations.OnlyResetClearsOffset : Prop :=
  ∀ s t : State, step s = .next t → s.irOffset = true → t.irOffset = false → rstNow s.env = true

/-- Without `rst`, the stored command and `ir_offset` change, and `ir_unread` becomes 1, only in the step in
which `IR_WAIT` returns `Ok` (10_state.md R25 to R27). [the spec's decisions D18, D21, D23, D24, D28; the
model's conventions: log 4] -/
def Obligations.RemoteBytesChangeOnlyOnOk : Prop :=
  ∀ s t : State, rstNow s.env = false → step s = .next t →
    ¬(t.irAddr = s.irAddr ∧ t.irCmd = s.irCmd ∧ t.irOffset = s.irOffset) ∨
      (s.irUnread = false ∧ t.irUnread = true) →
    s.busy = true ∧ s.irState = .validating ∧ t.irState = .done ∧ t.busy = false ∧
      t.irUnread = true ∧ t.irOffset = true ∧ t.rsp = ⟨true, 0, false, .ok, false⟩

/-! ### Error statuses (60_exceptions.md) -/

/-- Entry into failure on a timeout (R141): in every measuring state of either acquisition whose counter has
reached its bound, the step discards the frame, goes to `Failed`, opens the port and returns `TimeoutError`,
lets no tick pass and changes nothing else, whatever the line does. [the spec's decisions D19, D23; the model's
conventions: log 4] -/
def Obligations.TimeoutRaisesFailure : Prop :=
  ∀ s : State, rstNow s.env = false → s.busy = true → s.limit ≤ s.cnt →
    ((∃ p, s.dhtState = .await p) ∨ (∃ n, s.dhtState = .sampleLow n) ∨ (∃ n, s.dhtState = .sampleHigh n) →
      step s = .next { s with
        frameLen := 0, frameWr := 0, dhtState := .failed
        busy := false, rsp := ⟨true, 0, false, .timeoutError, false⟩ }) ∧
    (s.dhtState.resting = true → (∃ n, s.irState = .sampleLow n) ∨ (∃ n, s.irState = .sampleHigh n) →
      step s = .next { s with
        frameLen := 0, frameWr := 0, irState := .failed
        busy := false, rsp := ⟨true, 0, false, .timeoutError, false⟩ })

/-- Every error status has its cause (R140, R144): a step that presents one ended an acquisition.
`TimeoutError`: a measurement whose counter had reached its bound. `ChecksumError`: a validated frame whose sum
differs from the parity byte, or whose address byte is 0xFF. `OverwriteError`: a validated remote frame with
another address byte while a command was unread. [the spec's decisions D16, D23; the model's conventions: log 4,
9] -/
def Obligations.ErrorStatusHasItsCause : Prop :=
  ∀ s t : State, rstNow s.env = false → step s = .next t → t.rsp.status ≠ .ok →
    s.busy = true ∧ t.busy = false ∧ t.rsp.valid = true ∧ t.frameLen = 0 ∧ t.frameWr = 0 ∧
    (s.dhtState.resting = false → t.dhtState = .failed) ∧
    (s.dhtState.resting = true → t.irState = .failed) ∧
    (t.rsp.status = .timeoutError → s.limit ≤ s.cnt ∧
      ((∃ p, s.dhtState = .await p) ∨ (∃ n, s.dhtState = .sampleLow n) ∨ (∃ n, s.dhtState = .sampleHigh n) ∨
        s.dhtState.resting = true ∧ ((∃ n, s.irState = .sampleLow n) ∨ ∃ n, s.irState = .sampleHigh n))) ∧
    (t.rsp.status = .checksumError →
      (s.dhtState = .validating ∧ ∃ p, s.frame.sensorPacket = .ok p ∧ p.temp + p.hum ≠ p.par) ∨
      (s.dhtState.resting = true ∧ s.irState = .validating ∧
        ∃ c, s.frame.remoteCommand s.irOffset = .ok c ∧ c.addr = 0xFF)) ∧
    (t.rsp.status = .overwriteError →
      s.dhtState.resting = true ∧ s.irState = .validating ∧ s.irUnread = true ∧
        ∃ c, s.frame.remoteCommand s.irOffset = .ok c ∧ c.addr ≠ 0xFF)

/-! ### The whole machine -/

/-- Every step keeps the invariant of `Sys2Proof.Machine.State.Inv`. [the spec's decisions D2, D5, D14, D17,
D23, D25, D28, D31; the model's conventions: log 3, 4, 9] -/
def Obligations.StepKeepsInvariant : Prop :=
  ∀ s t : State, s.Inv → step s = .next t → t.Inv

/-- The state after reset of every instance, that of `State.reset` among them, meets the invariant. [the spec's
decisions D18, D28; the model's conventions: log 2, 3, 9] -/
def Obligations.ResetMeetsInvariant : Prop :=
  (∀ c : Config, (State.resetOf c).Inv) ∧ State.reset.Inv

/-- In a state of the invariant no step stops: the block has no fault and is never stuck
(93_implementation_defined.md, last paragraph of its first part). [the spec's decisions D14; derived in the
spec: R88; the model's conventions: log 4, 9] -/
def Obligations.InvariantStepNeverStops : Prop :=
  ∀ s : State, s.Inv → ∃ t, step s = .next t

/-- Every blocking operation returns: with no `rst`, the engine stays busy until a step at which it presents a
response, after at most `limit − cnt` ticks for `ET_MEASURE`, at most `64 × MAX_TICKS` for `IR_WAIT`, and at
most `T_START_LOW + T_START_HIGH + 84 × MAX_TICKS` for every operation, `DHT_ACQUIRE` among them (R88, R94,
R119, R133). [the spec's decisions D30; derived in the spec: R88, R119, R133; the model's conventions: log 4, 5] -/
def Obligations.BlockingOperationsReturn : Prop :=
  ∀ s : State, s.Inv → s.busy = true → noReset s.env →
    ∃ n t, runSteps n s = .next t ∧ t.busy = false ∧ t.rsp.valid = true ∧
      (∀ k, k < n → ∃ u, runSteps k s = .next u ∧ u.busy = true ∧ u.rsp.valid = false) ∧
      t.env.now ≤ s.env.now + s.cfg.tStartLow + s.cfg.tStartHigh + 84 * s.cfg.maxTicks ∧
      (s.irState.resting = false → t.env.now ≤ s.env.now + 64 * s.cfg.maxTicks) ∧
      (measuring s = true → t.env.now ≤ s.env.now + (s.limit - s.cnt))

/-- No step changes a parameter of the instance (00_scope.md R8). [the spec's decisions D4, D12, D13; the
model's conventions: log 1] -/
def Obligations.ParametersNeverChange : Prop :=
  ∀ s t : State, step s = .next t → t.cfg = s.cfg

/-- A response is presented once per command (30_encoding.md R62): in the step that accepts a command that does
not block, in the step in which a blocking operation returns, and in no other. [the spec's decisions D2; the
model's conventions: log 4, 6] -/
def Obligations.ResponseOncePerCommand : Prop :=
  ∀ s t : State, rstNow s.env = false → step s = .next t →
    (s.busy = true → t.rsp.valid = !t.busy) ∧
    (s.busy = false → (∃ w a b rest, s.env.host = .command w a b :: rest) → t.rsp.valid = !t.busy) ∧
    (s.busy = false → (s.env.host = [] ∨ ∃ rest, s.env.host = .idle :: rest) →
      t.rsp.valid = false ∧ t.busy = false)

/-- No operation lets a tick pass when it is accepted, and only the three blocking operations close the port
(00_scope.md R13, 30_encoding.md R62). [the spec's decisions D2, D9; the model's conventions: log 4] -/
def Obligations.AcceptanceTakesNoTick : Prop :=
  ∀ (i : Instr) (s t : State), exec i s = .next t →
    t.env = s.env ∧
    ((∃ level sel, i = .etMeasure level sel) ∨ i = .dhtAcquire ∨ i = .irWait ∨ t.busy = s.busy)
end

