-- ==== Sys2Proof/Laws/State.lean ====
section
/-! SUPPORT. The fields of the state after each shared operation: one lemma a field, true by `rfl`. -/

namespace Sys2Proof.Laws

open Sys2Proof Sys2Proof.Machine

/-! ### Presenting a response -/

@[simp] theorem respond_cfg (r : Response) (s : State) : (respond r s).cfg = s.cfg := rfl
@[simp] theorem respond_cnt (r : Response) (s : State) : (respond r s).cnt = s.cnt := rfl
@[simp] theorem respond_limit (r : Response) (s : State) : (respond r s).limit = s.limit := rfl
@[simp] theorem respond_frame (r : Response) (s : State) : (respond r s).frame = s.frame := rfl
@[simp] theorem respond_frameLen (r : Response) (s : State) : (respond r s).frameLen = s.frameLen := rfl
@[simp] theorem respond_frameWr (r : Response) (s : State) : (respond r s).frameWr = s.frameWr := rfl
@[simp] theorem respond_dhtState (r : Response) (s : State) : (respond r s).dhtState = s.dhtState := rfl
@[simp] theorem respond_dhtHum (r : Response) (s : State) : (respond r s).dhtHum = s.dhtHum := rfl
@[simp] theorem respond_dhtTemp (r : Response) (s : State) : (respond r s).dhtTemp = s.dhtTemp := rfl
@[simp] theorem respond_dhtPar (r : Response) (s : State) : (respond r s).dhtPar = s.dhtPar := rfl
@[simp] theorem respond_dhtOe (r : Response) (s : State) : (respond r s).dhtOe = s.dhtOe := rfl
@[simp] theorem respond_dhtOut (r : Response) (s : State) : (respond r s).dhtOut = s.dhtOut := rfl
@[simp] theorem respond_irState (r : Response) (s : State) : (respond r s).irState = s.irState := rfl
@[simp] theorem respond_irOffset (r : Response) (s : State) : (respond r s).irOffset = s.irOffset := rfl
@[simp] theorem respond_irUnread (r : Response) (s : State) : (respond r s).irUnread = s.irUnread := rfl
@[simp] theorem respond_irAddr (r : Response) (s : State) : (respond r s).irAddr = s.irAddr := rfl
@[simp] theorem respond_irCmd (r : Response) (s : State) : (respond r s).irCmd = s.irCmd := rfl
@[simp] theorem respond_irEdgeTicks (r : Response) (s : State) :
    (respond r s).irEdgeTicks = s.irEdgeTicks := rfl
@[simp] theorem respond_busy (r : Response) (s : State) : (respond r s).busy = s.busy := rfl
@[simp] theorem respond_measLevel (r : Response) (s : State) : (respond r s).measLevel = s.measLevel := rfl
@[simp] theorem respond_measSel (r : Response) (s : State) : (respond r s).measSel = s.measSel := rfl
@[simp] theorem respond_rsp (r : Response) (s : State) : (respond r s).rsp = r := rfl
@[simp] theorem respond_env (r : Response) (s : State) : (respond r s).env = s.env := rfl

/-! ### Presenting no response -/

@[simp] theorem noResponse_cfg (s : State) : (noResponse s).cfg = s.cfg := rfl
@[simp] theorem noResponse_cnt (s : State) : (noResponse s).cnt = s.cnt := rfl
@[simp] theorem noResponse_limit (s : State) : (noResponse s).limit = s.limit := rfl
@[simp] theorem noResponse_frame (s : State) : (noResponse s).frame = s.frame := rfl
@[simp] theorem noResponse_frameLen (s : State) : (noResponse s).frameLen = s.frameLen := rfl
@[simp] theorem noResponse_frameWr (s : State) : (noResponse s).frameWr = s.frameWr := rfl
@[simp] theorem noResponse_dhtState (s : State) : (noResponse s).dhtState = s.dhtState := rfl
@[simp] theorem noResponse_dhtHum (s : State) : (noResponse s).dhtHum = s.dhtHum := rfl
@[simp] theorem noResponse_dhtTemp (s : State) : (noResponse s).dhtTemp = s.dhtTemp := rfl
@[simp] theorem noResponse_dhtPar (s : State) : (noResponse s).dhtPar = s.dhtPar := rfl
@[simp] theorem noResponse_dhtOe (s : State) : (noResponse s).dhtOe = s.dhtOe := rfl
@[simp] theorem noResponse_dhtOut (s : State) : (noResponse s).dhtOut = s.dhtOut := rfl
@[simp] theorem noResponse_irState (s : State) : (noResponse s).irState = s.irState := rfl
@[simp] theorem noResponse_irOffset (s : State) : (noResponse s).irOffset = s.irOffset := rfl
@[simp] theorem noResponse_irUnread (s : State) : (noResponse s).irUnread = s.irUnread := rfl
@[simp] theorem noResponse_irAddr (s : State) : (noResponse s).irAddr = s.irAddr := rfl
@[simp] theorem noResponse_irCmd (s : State) : (noResponse s).irCmd = s.irCmd := rfl
@[simp] theorem noResponse_irEdgeTicks (s : State) : (noResponse s).irEdgeTicks = s.irEdgeTicks := rfl
@[simp] theorem noResponse_busy (s : State) : (noResponse s).busy = s.busy := rfl
@[simp] theorem noResponse_measLevel (s : State) : (noResponse s).measLevel = s.measLevel := rfl
@[simp] theorem noResponse_measSel (s : State) : (noResponse s).measSel = s.measSel := rfl
@[simp] theorem noResponse_rsp (s : State) : (noResponse s).rsp = .quiet := rfl
@[simp] theorem noResponse_env (s : State) : (noResponse s).env = s.env := rfl

/-! ### `tick()` (R80) -/

@[simp] theorem tick_cfg (s : State) : (s.tick).cfg = s.cfg := rfl
@[simp] theorem tick_cnt (s : State) : (s.tick).cnt = if s.cnt < s.limit then s.cnt + 1 else s.cnt := rfl
@[simp] theorem tick_limit (s : State) : (s.tick).limit = s.limit := rfl
@[simp] theorem tick_frame (s : State) : (s.tick).frame = s.frame := rfl
@[simp] theorem tick_frameLen (s : State) : (s.tick).frameLen = s.frameLen := rfl
@[simp] theorem tick_frameWr (s : State) : (s.tick).frameWr = s.frameWr := rfl
@[simp] theorem tick_dhtState (s : State) : (s.tick).dhtState = s.dhtState := rfl
@[simp] theorem tick_dhtHum (s : State) : (s.tick).dhtHum = s.dhtHum := rfl
@[simp] theorem tick_dhtTemp (s : State) : (s.tick).dhtTemp = s.dhtTemp := rfl
@[simp] theorem tick_dhtPar (s : State) : (s.tick).dhtPar = s.dhtPar := rfl
@[simp] theorem tick_dhtOe (s : State) : (s.tick).dhtOe = s.dhtOe := rfl
@[simp] theorem tick_dhtOut (s : State) : (s.tick).dhtOut = s.dhtOut := rfl
@[simp] theorem tick_irState (s : State) : (s.tick).irState = s.irState := rfl
@[simp] theorem tick_irOffset (s : State) : (s.tick).irOffset = s.irOffset := rfl
@[simp] theorem tick_irUnread (s : State) : (s.tick).irUnread = s.irUnread := rfl
@[simp] theorem tick_irAddr (s : State) : (s.tick).irAddr = s.irAddr := rfl
@[simp] theorem tick_irCmd (s : State) : (s.tick).irCmd = s.irCmd := rfl
@[simp] theorem tick_irEdgeTicks (s : State) : (s.tick).irEdgeTicks = s.irEdgeTicks := rfl
@[simp] theorem tick_busy (s : State) : (s.tick).busy = s.busy := rfl
@[simp] theorem tick_measLevel (s : State) : (s.tick).measLevel = s.measLevel := rfl
@[simp] theorem tick_measSel (s : State) : (s.tick).measSel = s.measSel := rfl
@[simp] theorem tick_rsp (s : State) : (s.tick).rsp = s.rsp := rfl
@[simp] theorem tick_env (s : State) : (s.tick).env = s.env.advance := rfl

/-! ### A tick passing -/

@[simp] theorem letTickPass_cfg (s : State) : (letTickPass s).cfg = s.cfg := rfl
@[simp] theorem letTickPass_cnt (s : State) :
    (letTickPass s).cnt = if s.cnt < s.limit then s.cnt + 1 else s.cnt := rfl
@[simp] theorem letTickPass_limit (s : State) : (letTickPass s).limit = s.limit := rfl
@[simp] theorem letTickPass_frame (s : State) : (letTickPass s).frame = s.frame := rfl
@[simp] theorem letTickPass_frameLen (s : State) : (letTickPass s).frameLen = s.frameLen := rfl
@[simp] theorem letTickPass_frameWr (s : State) : (letTickPass s).frameWr = s.frameWr := rfl
@[simp] theorem letTickPass_dhtState (s : State) : (letTickPass s).dhtState = s.dhtState := rfl
@[simp] theorem letTickPass_dhtHum (s : State) : (letTickPass s).dhtHum = s.dhtHum := rfl
@[simp] theorem letTickPass_dhtTemp (s : State) : (letTickPass s).dhtTemp = s.dhtTemp := rfl
@[simp] theorem letTickPass_dhtPar (s : State) : (letTickPass s).dhtPar = s.dhtPar := rfl
@[simp] theorem letTickPass_dhtOe (s : State) : (letTickPass s).dhtOe = s.dhtOe := rfl
@[simp] theorem letTickPass_dhtOut (s : State) : (letTickPass s).dhtOut = s.dhtOut := rfl
@[simp] theorem letTickPass_irState (s : State) : (letTickPass s).irState = s.irState := rfl
@[simp] theorem letTickPass_irOffset (s : State) : (letTickPass s).irOffset = s.irOffset := rfl
@[simp] theorem letTickPass_irUnread (s : State) : (letTickPass s).irUnread = s.irUnread := rfl
@[simp] theorem letTickPass_irAddr (s : State) : (letTickPass s).irAddr = s.irAddr := rfl
@[simp] theorem letTickPass_irCmd (s : State) : (letTickPass s).irCmd = s.irCmd := rfl
@[simp] theorem letTickPass_irEdgeTicks (s : State) : (letTickPass s).irEdgeTicks = s.irEdgeTicks := rfl
@[simp] theorem letTickPass_busy (s : State) : (letTickPass s).busy = s.busy := rfl
@[simp] theorem letTickPass_measLevel (s : State) : (letTickPass s).measLevel = s.measLevel := rfl
@[simp] theorem letTickPass_measSel (s : State) : (letTickPass s).measSel = s.measSel := rfl
@[simp] theorem letTickPass_rsp (s : State) : (letTickPass s).rsp = .quiet := rfl
@[simp] theorem letTickPass_env (s : State) : (letTickPass s).env = s.env.advance := rfl

/-! ### `reset()` of the counter -/

@[simp] theorem zeroCount_cfg (s : State) : (zeroCount s).cfg = s.cfg := rfl
@[simp] theorem zeroCount_cnt (s : State) : (zeroCount s).cnt = 0 := rfl
@[simp] theorem zeroCount_limit (s : State) : (zeroCount s).limit = s.limit := rfl
@[simp] theorem zeroCount_frame (s : State) : (zeroCount s).frame = s.frame := rfl
@[simp] theorem zeroCount_frameLen (s : State) : (zeroCount s).frameLen = s.frameLen := rfl
@[simp] theorem zeroCount_frameWr (s : State) : (zeroCount s).frameWr = s.frameWr := rfl
@[simp] theorem zeroCount_dhtState (s : State) : (zeroCount s).dhtState = s.dhtState := rfl
@[simp] theorem zeroCount_dhtHum (s : State) : (zeroCount s).dhtHum = s.dhtHum := rfl
@[simp] theorem zeroCount_dhtTemp (s : State) : (zeroCount s).dhtTemp = s.dhtTemp := rfl
@[simp] theorem zeroCount_dhtPar (s : State) : (zeroCount s).dhtPar = s.dhtPar := rfl
@[simp] theorem zeroCount_dhtOe (s : State) : (zeroCount s).dhtOe = s.dhtOe := rfl
@[simp] theorem zeroCount_dhtOut (s : State) : (zeroCount s).dhtOut = s.dhtOut := rfl
@[simp] theorem zeroCount_irState (s : State) : (zeroCount s).irState = s.irState := rfl
@[simp] theorem zeroCount_irOffset (s : State) : (zeroCount s).irOffset = s.irOffset := rfl
@[simp] theorem zeroCount_irUnread (s : State) : (zeroCount s).irUnread = s.irUnread := rfl
@[simp] theorem zeroCount_irAddr (s : State) : (zeroCount s).irAddr = s.irAddr := rfl
@[simp] theorem zeroCount_irCmd (s : State) : (zeroCount s).irCmd = s.irCmd := rfl
@[simp] theorem zeroCount_irEdgeTicks (s : State) : (zeroCount s).irEdgeTicks = s.irEdgeTicks := rfl
@[simp] theorem zeroCount_busy (s : State) : (zeroCount s).busy = s.busy := rfl
@[simp] theorem zeroCount_measLevel (s : State) : (zeroCount s).measLevel = s.measLevel := rfl
@[simp] theorem zeroCount_measSel (s : State) : (zeroCount s).measSel = s.measSel := rfl
@[simp] theorem zeroCount_rsp (s : State) : (zeroCount s).rsp = s.rsp := rfl
@[simp] theorem zeroCount_env (s : State) : (zeroCount s).env = s.env := rfl

/-! ### `armTimeout(m)` -/

@[simp] theorem setLimit_cfg (m : Nat) (s : State) : (setLimit m s).cfg = s.cfg := rfl
@[simp] theorem setLimit_cnt (m : Nat) (s : State) : (setLimit m s).cnt = s.cnt := rfl
@[simp] theorem setLimit_limit (m : Nat) (s : State) : (setLimit m s).limit = m := rfl
@[simp] theorem setLimit_frame (m : Nat) (s : State) : (setLimit m s).frame = s.frame := rfl
@[simp] theorem setLimit_frameLen (m : Nat) (s : State) : (setLimit m s).frameLen = s.frameLen := rfl
@[simp] theorem setLimit_frameWr (m : Nat) (s : State) : (setLimit m s).frameWr = s.frameWr := rfl
@[simp] theorem setLimit_dhtState (m : Nat) (s : State) : (setLimit m s).dhtState = s.dhtState := rfl
@[simp] theorem setLimit_dhtHum (m : Nat) (s : State) : (setLimit m s).dhtHum = s.dhtHum := rfl
@[simp] theorem setLimit_dhtTemp (m : Nat) (s : State) : (setLimit m s).dhtTemp = s.dhtTemp := rfl
@[simp] theorem setLimit_dhtPar (m : Nat) (s : State) : (setLimit m s).dhtPar = s.dhtPar := rfl
@[simp] theorem setLimit_dhtOe (m : Nat) (s : State) : (setLimit m s).dhtOe = s.dhtOe := rfl
@[simp] theorem setLimit_dhtOut (m : Nat) (s : State) : (setLimit m s).dhtOut = s.dhtOut := rfl
@[simp] theorem setLimit_irState (m : Nat) (s : State) : (setLimit m s).irState = s.irState := rfl
@[simp] theorem setLimit_irOffset (m : Nat) (s : State) : (setLimit m s).irOffset = s.irOffset := rfl
@[simp] theorem setLimit_irUnread (m : Nat) (s : State) : (setLimit m s).irUnread = s.irUnread := rfl
@[simp] theorem setLimit_irAddr (m : Nat) (s : State) : (setLimit m s).irAddr = s.irAddr := rfl
@[simp] theorem setLimit_irCmd (m : Nat) (s : State) : (setLimit m s).irCmd = s.irCmd := rfl
@[simp] theorem setLimit_irEdgeTicks (m : Nat) (s : State) :
    (setLimit m s).irEdgeTicks = s.irEdgeTicks := rfl
@[simp] theorem setLimit_busy (m : Nat) (s : State) : (setLimit m s).busy = s.busy := rfl
@[simp] theorem setLimit_measLevel (m : Nat) (s : State) : (setLimit m s).measLevel = s.measLevel := rfl
@[simp] theorem setLimit_measSel (m : Nat) (s : State) : (setLimit m s).measSel = s.measSel := rfl
@[simp] theorem setLimit_rsp (m : Nat) (s : State) : (setLimit m s).rsp = s.rsp := rfl
@[simp] theorem setLimit_env (m : Nat) (s : State) : (setLimit m s).env = s.env := rfl

/-! ### The start of `DELAY m` -/

@[simp] theorem startCount_cfg (m : Nat) (s : State) : (startCount m s).cfg = s.cfg := rfl
@[simp] theorem startCount_cnt (m : Nat) (s : State) : (startCount m s).cnt = 0 := rfl
@[simp] theorem startCount_limit (m : Nat) (s : State) : (startCount m s).limit = m := rfl
@[simp] theorem startCount_frame (m : Nat) (s : State) : (startCount m s).frame = s.frame := rfl
@[simp] theorem startCount_frameLen (m : Nat) (s : State) : (startCount m s).frameLen = s.frameLen := rfl
@[simp] theorem startCount_frameWr (m : Nat) (s : State) : (startCount m s).frameWr = s.frameWr := rfl
@[simp] theorem startCount_dhtState (m : Nat) (s : State) : (startCount m s).dhtState = s.dhtState := rfl
@[simp] theorem startCount_dhtHum (m : Nat) (s : State) : (startCount m s).dhtHum = s.dhtHum := rfl
@[simp] theorem startCount_dhtTemp (m : Nat) (s : State) : (startCount m s).dhtTemp = s.dhtTemp := rfl
@[simp] theorem startCount_dhtPar (m : Nat) (s : State) : (startCount m s).dhtPar = s.dhtPar := rfl
@[simp] theorem startCount_dhtOe (m : Nat) (s : State) : (startCount m s).dhtOe = s.dhtOe := rfl
@[simp] theorem startCount_dhtOut (m : Nat) (s : State) : (startCount m s).dhtOut = s.dhtOut := rfl
@[simp] theorem startCount_irState (m : Nat) (s : State) : (startCount m s).irState = s.irState := rfl
@[simp] theorem startCount_irOffset (m : Nat) (s : State) : (startCount m s).irOffset = s.irOffset := rfl
@[simp] theorem startCount_irUnread (m : Nat) (s : State) : (startCount m s).irUnread = s.irUnread := rfl
@[simp] theorem startCount_irAddr (m : Nat) (s : State) : (startCount m s).irAddr = s.irAddr := rfl
@[simp] theorem startCount_irCmd (m : Nat) (s : State) : (startCount m s).irCmd = s.irCmd := rfl
@[simp] theorem startCount_irEdgeTicks (m : Nat) (s : State) :
    (startCount m s).irEdgeTicks = s.irEdgeTicks := rfl
@[simp] theorem startCount_busy (m : Nat) (s : State) : (startCount m s).busy = s.busy := rfl
@[simp] theorem startCount_measLevel (m : Nat) (s : State) : (startCount m s).measLevel = s.measLevel := rfl
@[simp] theorem startCount_measSel (m : Nat) (s : State) : (startCount m s).measSel = s.measSel := rfl
@[simp] theorem startCount_rsp (m : Nat) (s : State) : (startCount m s).rsp = s.rsp := rfl
@[simp] theorem startCount_env (m : Nat) (s : State) : (startCount m s).env = s.env := rfl

/-! ### `resetAndArm()` -/

@[simp] theorem armFull_cfg (s : State) : (armFull s).cfg = s.cfg := rfl
@[simp] theorem armFull_cnt (s : State) : (armFull s).cnt = 0 := rfl
@[simp] theorem armFull_limit (s : State) : (armFull s).limit = s.cfg.maxTicks := rfl
@[simp] theorem armFull_frame (s : State) : (armFull s).frame = s.frame := rfl
@[simp] theorem armFull_frameLen (s : State) : (armFull s).frameLen = s.frameLen := rfl
@[simp] theorem armFull_frameWr (s : State) : (armFull s).frameWr = s.frameWr := rfl
@[simp] theorem armFull_dhtState (s : State) : (armFull s).dhtState = s.dhtState := rfl
@[simp] theorem armFull_dhtHum (s : State) : (armFull s).dhtHum = s.dhtHum := rfl
@[simp] theorem armFull_dhtTemp (s : State) : (armFull s).dhtTemp = s.dhtTemp := rfl
@[simp] theorem armFull_dhtPar (s : State) : (armFull s).dhtPar = s.dhtPar := rfl
@[simp] theorem armFull_dhtOe (s : State) : (armFull s).dhtOe = s.dhtOe := rfl
@[simp] theorem armFull_dhtOut (s : State) : (armFull s).dhtOut = s.dhtOut := rfl
@[simp] theorem armFull_irState (s : State) : (armFull s).irState = s.irState := rfl
@[simp] theorem armFull_irOffset (s : State) : (armFull s).irOffset = s.irOffset := rfl
@[simp] theorem armFull_irUnread (s : State) : (armFull s).irUnread = s.irUnread := rfl
@[simp] theorem armFull_irAddr (s : State) : (armFull s).irAddr = s.irAddr := rfl
@[simp] theorem armFull_irCmd (s : State) : (armFull s).irCmd = s.irCmd := rfl
@[simp] theorem armFull_irEdgeTicks (s : State) : (armFull s).irEdgeTicks = s.irEdgeTicks := rfl
@[simp] theorem armFull_busy (s : State) : (armFull s).busy = s.busy := rfl
@[simp] theorem armFull_measLevel (s : State) : (armFull s).measLevel = s.measLevel := rfl
@[simp] theorem armFull_measSel (s : State) : (armFull s).measSel = s.measSel := rfl
@[simp] theorem armFull_rsp (s : State) : (armFull s).rsp = s.rsp := rfl
@[simp] theorem armFull_env (s : State) : (armFull s).env = s.env := rfl

/-! ### Starting a frame -/

@[simp] theorem startFrame_cfg (len : Nat) (s : State) : (startFrame len s).cfg = s.cfg := rfl
@[simp] theorem startFrame_cnt (len : Nat) (s : State) : (startFrame len s).cnt = s.cnt := rfl
@[simp] theorem startFrame_limit (len : Nat) (s : State) : (startFrame len s).limit = s.limit := rfl
@[simp] theorem startFrame_frame (len : Nat) (s : State) : (startFrame len s).frame = s.frame := rfl
@[simp] theorem startFrame_frameLen (len : Nat) (s : State) : (startFrame len s).frameLen = len := rfl
@[simp] theorem startFrame_frameWr (len : Nat) (s : State) : (startFrame len s).frameWr = 0 := rfl
@[simp] theorem startFrame_dhtState (len : Nat) (s : State) : (startFrame len s).dhtState = s.dhtState := rfl
@[simp] theorem startFrame_dhtHum (len : Nat) (s : State) : (startFrame len s).dhtHum = s.dhtHum := rfl
@[simp] theorem startFrame_dhtTemp (len : Nat) (s : State) : (startFrame len s).dhtTemp = s.dhtTemp := rfl
@[simp] theorem startFrame_dhtPar (len : Nat) (s : State) : (startFrame len s).dhtPar = s.dhtPar := rfl
@[simp] theorem startFrame_dhtOe (len : Nat) (s : State) : (startFrame len s).dhtOe = s.dhtOe := rfl
@[simp] theorem startFrame_dhtOut (len : Nat) (s : State) : (startFrame len s).dhtOut = s.dhtOut := rfl
@[simp] theorem startFrame_irState (len : Nat) (s : State) : (startFrame len s).irState = s.irState := rfl
@[simp] theorem startFrame_irOffset (len : Nat) (s : State) : (startFrame len s).irOffset = s.irOffset := rfl
@[simp] theorem startFrame_irUnread (len : Nat) (s : State) : (startFrame len s).irUnread = s.irUnread := rfl
@[simp] theorem startFrame_irAddr (len : Nat) (s : State) : (startFrame len s).irAddr = s.irAddr := rfl
@[simp] theorem startFrame_irCmd (len : Nat) (s : State) : (startFrame len s).irCmd = s.irCmd := rfl
@[simp] theorem startFrame_irEdgeTicks (len : Nat) (s : State) :
    (startFrame len s).irEdgeTicks = s.irEdgeTicks := rfl
@[simp] theorem startFrame_busy (len : Nat) (s : State) : (startFrame len s).busy = s.busy := rfl
@[simp] theorem startFrame_measLevel (len : Nat) (s : State) :
    (startFrame len s).measLevel = s.measLevel := rfl
@[simp] theorem startFrame_measSel (len : Nat) (s : State) : (startFrame len s).measSel = s.measSel := rfl
@[simp] theorem startFrame_rsp (len : Nat) (s : State) : (startFrame len s).rsp = s.rsp := rfl
@[simp] theorem startFrame_env (len : Nat) (s : State) : (startFrame len s).env = s.env := rfl

/-! ### Storing a bit -/

@[simp] theorem storeBit_cfg (p : Nat) (b : Bool) (s : State) : (storeBit p b s).cfg = s.cfg := rfl
@[simp] theorem storeBit_cnt (p : Nat) (b : Bool) (s : State) : (storeBit p b s).cnt = s.cnt := rfl
@[simp] theorem storeBit_limit (p : Nat) (b : Bool) (s : State) : (storeBit p b s).limit = s.limit := rfl
@[simp] theorem storeBit_frame (p : Nat) (b : Bool) (s : State) :
    (storeBit p b s).frame = s.frame.writeBit p b := rfl
@[simp] theorem storeBit_frameLen (p : Nat) (b : Bool) (s : State) :
    (storeBit p b s).frameLen = s.frameLen := rfl
@[simp] theorem storeBit_frameWr (p : Nat) (b : Bool) (s : State) : (storeBit p b s).frameWr = p + 1 := rfl
@[simp] theorem storeBit_dhtState (p : Nat) (b : Bool) (s : State) :
    (storeBit p b s).dhtState = s.dhtState := rfl
@[simp] theorem storeBit_dhtHum (p : Nat) (b : Bool) (s : State) : (storeBit p b s).dhtHum = s.dhtHum := rfl
@[simp] theorem storeBit_dhtTemp (p : Nat) (b : Bool) (s : State) :
    (storeBit p b s).dhtTemp = s.dhtTemp := rfl
@[simp] theorem storeBit_dhtPar (p : Nat) (b : Bool) (s : State) : (storeBit p b s).dhtPar = s.dhtPar := rfl
@[simp] theorem storeBit_dhtOe (p : Nat) (b : Bool) (s : State) : (storeBit p b s).dhtOe = s.dhtOe := rfl
@[simp] theorem storeBit_dhtOut (p : Nat) (b : Bool) (s : State) : (storeBit p b s).dhtOut = s.dhtOut := rfl
@[simp] theorem storeBit_irState (p : Nat) (b : Bool) (s : State) :
    (storeBit p b s).irState = s.irState := rfl
@[simp] theorem storeBit_irOffset (p : Nat) (b : Bool) (s : State) :
    (storeBit p b s).irOffset = s.irOffset := rfl
@[simp] theorem storeBit_irUnread (p : Nat) (b : Bool) (s : State) :
    (storeBit p b s).irUnread = s.irUnread := rfl
@[simp] theorem storeBit_irAddr (p : Nat) (b : Bool) (s : State) : (storeBit p b s).irAddr = s.irAddr := rfl
@[simp] theorem storeBit_irCmd (p : Nat) (b : Bool) (s : State) : (storeBit p b s).irCmd = s.irCmd := rfl
@[simp] theorem storeBit_irEdgeTicks (p : Nat) (b : Bool) (s : State) :
    (storeBit p b s).irEdgeTicks = s.irEdgeTicks := rfl
@[simp] theorem storeBit_busy (p : Nat) (b : Bool) (s : State) : (storeBit p b s).busy = s.busy := rfl
@[simp] theorem storeBit_measLevel (p : Nat) (b : Bool) (s : State) :
    (storeBit p b s).measLevel = s.measLevel := rfl
@[simp] theorem storeBit_measSel (p : Nat) (b : Bool) (s : State) :
    (storeBit p b s).measSel = s.measSel := rfl
@[simp] theorem storeBit_rsp (p : Nat) (b : Bool) (s : State) : (storeBit p b s).rsp = s.rsp := rfl
@[simp] theorem storeBit_env (p : Nat) (b : Bool) (s : State) : (storeBit p b s).env = s.env := rfl

/-! ### `DISCARD_FRAME` -/

@[simp] theorem discardFrame_cfg (s : State) : (discardFrame s).cfg = s.cfg := rfl
@[simp] theorem discardFrame_cnt (s : State) : (discardFrame s).cnt = s.cnt := rfl
@[simp] theorem discardFrame_limit (s : State) : (discardFrame s).limit = s.limit := rfl
@[simp] theorem discardFrame_frame (s : State) : (discardFrame s).frame = s.frame := rfl
@[simp] theorem discardFrame_frameLen (s : State) : (discardFrame s).frameLen = 0 := rfl
@[simp] theorem discardFrame_frameWr (s : State) : (discardFrame s).frameWr = 0 := rfl
@[simp] theorem discardFrame_dhtState (s : State) : (discardFrame s).dhtState = s.dhtState := rfl
@[simp] theorem discardFrame_dhtHum (s : State) : (discardFrame s).dhtHum = s.dhtHum := rfl
@[simp] theorem discardFrame_dhtTemp (s : State) : (discardFrame s).dhtTemp = s.dhtTemp := rfl
@[simp] theorem discardFrame_dhtPar (s : State) : (discardFrame s).dhtPar = s.dhtPar := rfl
@[simp] theorem discardFrame_dhtOe (s : State) : (discardFrame s).dhtOe = s.dhtOe := rfl
@[simp] theorem discardFrame_dhtOut (s : State) : (discardFrame s).dhtOut = s.dhtOut := rfl
@[simp] theorem discardFrame_irState (s : State) : (discardFrame s).irState = s.irState := rfl
@[simp] theorem discardFrame_irOffset (s : State) : (discardFrame s).irOffset = s.irOffset := rfl
@[simp] theorem discardFrame_irUnread (s : State) : (discardFrame s).irUnread = s.irUnread := rfl
@[simp] theorem discardFrame_irAddr (s : State) : (discardFrame s).irAddr = s.irAddr := rfl
@[simp] theorem discardFrame_irCmd (s : State) : (discardFrame s).irCmd = s.irCmd := rfl
@[simp] theorem discardFrame_irEdgeTicks (s : State) : (discardFrame s).irEdgeTicks = s.irEdgeTicks := rfl
@[simp] theorem discardFrame_busy (s : State) : (discardFrame s).busy = s.busy := rfl
@[simp] theorem discardFrame_measLevel (s : State) : (discardFrame s).measLevel = s.measLevel := rfl
@[simp] theorem discardFrame_measSel (s : State) : (discardFrame s).measSel = s.measSel := rfl
@[simp] theorem discardFrame_rsp (s : State) : (discardFrame s).rsp = s.rsp := rfl
@[simp] theorem discardFrame_env (s : State) : (discardFrame s).env = s.env := rfl

/-! ### The return of an operation -/

@[simp] theorem finish_cfg (r : Response) (s : State) : (finish r s).cfg = s.cfg := rfl
@[simp] theorem finish_cnt (r : Response) (s : State) : (finish r s).cnt = s.cnt := rfl
@[simp] theorem finish_limit (r : Response) (s : State) : (finish r s).limit = s.limit := rfl
@[simp] theorem finish_frame (r : Response) (s : State) : (finish r s).frame = s.frame := rfl
@[simp] theorem finish_frameLen (r : Response) (s : State) : (finish r s).frameLen = s.frameLen := rfl
@[simp] theorem finish_frameWr (r : Response) (s : State) : (finish r s).frameWr = s.frameWr := rfl
@[simp] theorem finish_dhtState (r : Response) (s : State) : (finish r s).dhtState = s.dhtState := rfl
@[simp] theorem finish_dhtHum (r : Response) (s : State) : (finish r s).dhtHum = s.dhtHum := rfl
@[simp] theorem finish_dhtTemp (r : Response) (s : State) : (finish r s).dhtTemp = s.dhtTemp := rfl
@[simp] theorem finish_dhtPar (r : Response) (s : State) : (finish r s).dhtPar = s.dhtPar := rfl
@[simp] theorem finish_dhtOe (r : Response) (s : State) : (finish r s).dhtOe = s.dhtOe := rfl
@[simp] theorem finish_dhtOut (r : Response) (s : State) : (finish r s).dhtOut = s.dhtOut := rfl
@[simp] theorem finish_irState (r : Response) (s : State) : (finish r s).irState = s.irState := rfl
@[simp] theorem finish_irOffset (r : Response) (s : State) : (finish r s).irOffset = s.irOffset := rfl
@[simp] theorem finish_irUnread (r : Response) (s : State) : (finish r s).irUnread = s.irUnread := rfl
@[simp] theorem finish_irAddr (r : Response) (s : State) : (finish r s).irAddr = s.irAddr := rfl
@[simp] theorem finish_irCmd (r : Response) (s : State) : (finish r s).irCmd = s.irCmd := rfl
@[simp] theorem finish_irEdgeTicks (r : Response) (s : State) :
    (finish r s).irEdgeTicks = s.irEdgeTicks := rfl
@[simp] theorem finish_busy (r : Response) (s : State) : (finish r s).busy = false := rfl
@[simp] theorem finish_measLevel (r : Response) (s : State) : (finish r s).measLevel = s.measLevel := rfl
@[simp] theorem finish_measSel (r : Response) (s : State) : (finish r s).measSel = s.measSel := rfl
@[simp] theorem finish_rsp (r : Response) (s : State) : (finish r s).rsp = r := rfl
@[simp] theorem finish_env (r : Response) (s : State) : (finish r s).env = s.env := rfl

/-! ### `raise` in `DHT_ACQUIRE` (R141) -/

@[simp] theorem raise_dht_cfg (st : Status) (s : State) : (raiseStatus .dht st s).cfg = s.cfg := rfl
@[simp] theorem raise_dht_cnt (st : Status) (s : State) : (raiseStatus .dht st s).cnt = s.cnt := rfl
@[simp] theorem raise_dht_limit (st : Status) (s : State) : (raiseStatus .dht st s).limit = s.limit := rfl
@[simp] theorem raise_dht_frame (st : Status) (s : State) : (raiseStatus .dht st s).frame = s.frame := rfl
@[simp] theorem raise_dht_frameLen (st : Status) (s : State) : (raiseStatus .dht st s).frameLen = 0 := rfl
@[simp] theorem raise_dht_frameWr (st : Status) (s : State) : (raiseStatus .dht st s).frameWr = 0 := rfl
@[simp] theorem raise_dht_dhtState (st : Status) (s : State) :
    (raiseStatus .dht st s).dhtState = .failed := rfl
@[simp] theorem raise_dht_dhtHum (st : Status) (s : State) : (raiseStatus .dht st s).dhtHum = s.dhtHum := rfl
@[simp] theorem raise_dht_dhtTemp (st : Status) (s : State) :
    (raiseStatus .dht st s).dhtTemp = s.dhtTemp := rfl
@[simp] theorem raise_dht_dhtPar (st : Status) (s : State) : (raiseStatus .dht st s).dhtPar = s.dhtPar := rfl
@[simp] theorem raise_dht_dhtOe (st : Status) (s : State) : (raiseStatus .dht st s).dhtOe = s.dhtOe := rfl
@[simp] theorem raise_dht_dhtOut (st : Status) (s : State) : (raiseStatus .dht st s).dhtOut = s.dhtOut := rfl
@[simp] theorem raise_dht_irState (st : Status) (s : State) :
    (raiseStatus .dht st s).irState = s.irState := rfl
@[simp] theorem raise_dht_irOffset (st : Status) (s : State) :
    (raiseStatus .dht st s).irOffset = s.irOffset := rfl
@[simp] theorem raise_dht_irUnread (st : Status) (s : State) :
    (raiseStatus .dht st s).irUnread = s.irUnread := rfl
@[simp] theorem raise_dht_irAddr (st : Status) (s : State) : (raiseStatus .dht st s).irAddr = s.irAddr := rfl
@[simp] theorem raise_dht_irCmd (st : Status) (s : State) : (raiseStatus .dht st s).irCmd = s.irCmd := rfl
@[simp] theorem raise_dht_irEdgeTicks (st : Status) (s : State) :
    (raiseStatus .dht st s).irEdgeTicks = s.irEdgeTicks := rfl
@[simp] theorem raise_dht_busy (st : Status) (s : State) : (raiseStatus .dht st s).busy = false := rfl
@[simp] theorem raise_dht_measLevel (st : Status) (s : State) :
    (raiseStatus .dht st s).measLevel = s.measLevel := rfl
@[simp] theorem raise_dht_measSel (st : Status) (s : State) :
    (raiseStatus .dht st s).measSel = s.measSel := rfl
@[simp] theorem raise_dht_rsp (st : Status) (s : State) :
    (raiseStatus .dht st s).rsp = statusResponse st := rfl
@[simp] theorem raise_dht_env (st : Status) (s : State) : (raiseStatus .dht st s).env = s.env := rfl

/-! ### `raise` in `IR_WAIT` (R141) -/

@[simp] theorem raise_ir_cfg (st : Status) (s : State) : (raiseStatus .ir st s).cfg = s.cfg := rfl
@[simp] theorem raise_ir_cnt (st : Status) (s : State) : (raiseStatus .ir st s).cnt = s.cnt := rfl
@[simp] theorem raise_ir_limit (st : Status) (s : State) : (raiseStatus .ir st s).limit = s.limit := rfl
@[simp] theorem raise_ir_frame (st : Status) (s : State) : (raiseStatus .ir st s).frame = s.frame := rfl
@[simp] theorem raise_ir_frameLen (st : Status) (s : State) : (raiseStatus .ir st s).frameLen = 0 := rfl
@[simp] theorem raise_ir_frameWr (st : Status) (s : State) : (raiseStatus .ir st s).frameWr = 0 := rfl
@[simp] theorem raise_ir_dhtState (st : Status) (s : State) :
    (raiseStatus .ir st s).dhtState = s.dhtState := rfl
@[simp] theorem raise_ir_dhtHum (st : Status) (s : State) : (raiseStatus .ir st s).dhtHum = s.dhtHum := rfl
@[simp] theorem raise_ir_dhtTemp (st : Status) (s : State) : (raiseStatus .ir st s).dhtTemp = s.dhtTemp := rfl
@[simp] theorem raise_ir_dhtPar (st : Status) (s : State) : (raiseStatus .ir st s).dhtPar = s.dhtPar := rfl
@[simp] theorem raise_ir_dhtOe (st : Status) (s : State) : (raiseStatus .ir st s).dhtOe = s.dhtOe := rfl
@[simp] theorem raise_ir_dhtOut (st : Status) (s : State) : (raiseStatus .ir st s).dhtOut = s.dhtOut := rfl
@[simp] theorem raise_ir_irState (st : Status) (s : State) : (raiseStatus .ir st s).irState = .failed := rfl
@[simp] theorem raise_ir_irOffset (st : Status) (s : State) :
    (raiseStatus .ir st s).irOffset = s.irOffset := rfl
@[simp] theorem raise_ir_irUnread (st : Status) (s : State) :
    (raiseStatus .ir st s).irUnread = s.irUnread := rfl
@[simp] theorem raise_ir_irAddr (st : Status) (s : State) : (raiseStatus .ir st s).irAddr = s.irAddr := rfl
@[simp] theorem raise_ir_irCmd (st : Status) (s : State) : (raiseStatus .ir st s).irCmd = s.irCmd := rfl
@[simp] theorem raise_ir_irEdgeTicks (st : Status) (s : State) :
    (raiseStatus .ir st s).irEdgeTicks = s.irEdgeTicks := rfl
@[simp] theorem raise_ir_busy (st : Status) (s : State) : (raiseStatus .ir st s).busy = false := rfl
@[simp] theorem raise_ir_measLevel (st : Status) (s : State) :
    (raiseStatus .ir st s).measLevel = s.measLevel := rfl
@[simp] theorem raise_ir_measSel (st : Status) (s : State) : (raiseStatus .ir st s).measSel = s.measSel := rfl
@[simp] theorem raise_ir_rsp (st : Status) (s : State) : (raiseStatus .ir st s).rsp = statusResponse st := rfl
@[simp] theorem raise_ir_env (st : Status) (s : State) : (raiseStatus .ir st s).env = s.env := rfl

/-! ### Sampling a command -/

@[simp] theorem sampleCommand_cfg (a b : Nat) (rest : List HostEvent) (s : State) :
    (sampleCommand a b rest s).cfg = s.cfg := rfl
@[simp] theorem sampleCommand_cnt (a b : Nat) (rest : List HostEvent) (s : State) :
    (sampleCommand a b rest s).cnt = s.cnt := rfl
@[simp] theorem sampleCommand_limit (a b : Nat) (rest : List HostEvent) (s : State) :
    (sampleCommand a b rest s).limit = s.limit := rfl
@[simp] theorem sampleCommand_frame (a b : Nat) (rest : List HostEvent) (s : State) :
    (sampleCommand a b rest s).frame = s.frame := rfl
@[simp] theorem sampleCommand_frameLen (a b : Nat) (rest : List HostEvent) (s : State) :
    (sampleCommand a b rest s).frameLen = s.frameLen := rfl
@[simp] theorem sampleCommand_frameWr (a b : Nat) (rest : List HostEvent) (s : State) :
    (sampleCommand a b rest s).frameWr = s.frameWr := rfl
@[simp] theorem sampleCommand_dhtState (a b : Nat) (rest : List HostEvent) (s : State) :
    (sampleCommand a b rest s).dhtState = s.dhtState := rfl
@[simp] theorem sampleCommand_dhtHum (a b : Nat) (rest : List HostEvent) (s : State) :
    (sampleCommand a b rest s).dhtHum = s.dhtHum := rfl
@[simp] theorem sampleCommand_dhtTemp (a b : Nat) (rest : List HostEvent) (s : State) :
    (sampleCommand a b rest s).dhtTemp = s.dhtTemp := rfl
@[simp] theorem sampleCommand_dhtPar (a b : Nat) (rest : List HostEvent) (s : State) :
    (sampleCommand a b rest s).dhtPar = s.dhtPar := rfl
@[simp] theorem sampleCommand_dhtOe (a b : Nat) (rest : List HostEvent) (s : State) :
    (sampleCommand a b rest s).dhtOe = s.dhtOe := rfl
@[simp] theorem sampleCommand_dhtOut (a b : Nat) (rest : List HostEvent) (s : State) :
    (sampleCommand a b rest s).dhtOut = s.dhtOut := rfl
@[simp] theorem sampleCommand_irState (a b : Nat) (rest : List HostEvent) (s : State) :
    (sampleCommand a b rest s).irState = s.irState := rfl
@[simp] theorem sampleCommand_irOffset (a b : Nat) (rest : List HostEvent) (s : State) :
    (sampleCommand a b rest s).irOffset = s.irOffset := rfl
@[simp] theorem sampleCommand_irUnread (a b : Nat) (rest : List HostEvent) (s : State) :
    (sampleCommand a b rest s).irUnread = s.irUnread := rfl
@[simp] theorem sampleCommand_irAddr (a b : Nat) (rest : List HostEvent) (s : State) :
    (sampleCommand a b rest s).irAddr = s.irAddr := rfl
@[simp] theorem sampleCommand_irCmd (a b : Nat) (rest : List HostEvent) (s : State) :
    (sampleCommand a b rest s).irCmd = s.irCmd := rfl
@[simp] theorem sampleCommand_irEdgeTicks (a b : Nat) (rest : List HostEvent) (s : State) :
    (sampleCommand a b rest s).irEdgeTicks = s.irEdgeTicks := rfl
@[simp] theorem sampleCommand_busy (a b : Nat) (rest : List HostEvent) (s : State) :
    (sampleCommand a b rest s).busy = s.busy := rfl
@[simp] theorem sampleCommand_measLevel (a b : Nat) (rest : List HostEvent) (s : State) :
    (sampleCommand a b rest s).measLevel = s.measLevel := rfl
@[simp] theorem sampleCommand_measSel (a b : Nat) (rest : List HostEvent) (s : State) :
    (sampleCommand a b rest s).measSel = s.measSel := rfl
@[simp] theorem sampleCommand_rsp (a b : Nat) (rest : List HostEvent) (s : State) :
    (sampleCommand a b rest s).rsp = s.rsp := rfl
@[simp] theorem sampleCommand_env (a b : Nat) (rest : List HostEvent) (s : State) :
    (sampleCommand a b rest s).env = { s.env with host := rest, dinA := a, dinB := b } := rfl

end Sys2Proof.Laws
end

