-- ==== Sys2Proof/Laws/Ops.lean ====
section
/-! SUPPORT. What each shared operation can do, said once: the frame space, the poll of a measurement, entry into
failure, the step, and the parameters. -/

namespace Sys2Proof.Laws

open Sys2Proof Sys2Proof.Machine

/-! ### The parameters -/

/-- Every legal instance is built from some numbers, so `Config.chosen` excludes none (log 2). -/
theorem config_ofRaw_surjective (c : Config) : ∃ r, Config.ofRaw r = c := by
  have hw : 2 ≤ c.w := by
    by_contra h
    have h1 : c.w = 1 := by have := c.w_pos; omega
    have := c.tStartLow_le
    have := c.tStartHigh_lt
    have := c.tStartHigh_pos
    rw [h1] at *
    omega
  have hk : c.w - 2 + 2 = c.w := by omega
  refine ⟨⟨c.w - 2, c.threshDht, c.threshIr, c.tStartLow - 2, c.tStartHigh - 1, c.tickHz⟩, ?_⟩
  have hl : c.tStartLow - 2 < 2 ^ c.w - 2 := by
    have := c.tStartLow_le
    have := c.tStartHigh_lt
    have := c.tStartHigh_pos
    omega
  have hh : c.tStartHigh - 1 < c.tStartLow - 2 + 1 := by
    have := c.tStartHigh_lt
    have := c.tStartHigh_pos
    omega
  have h2 : 2 ≤ c.tStartLow := by
    have := c.tStartHigh_lt
    have := c.tStartHigh_pos
    omega
  have h3 : 1 ≤ c.tStartHigh := c.tStartHigh_pos
  have e1 := Nat.mod_eq_of_lt c.threshDht_lt
  have e2 := Nat.mod_eq_of_lt c.threshIr_lt
  cases c
  simp only [Config.ofRaw, Config.mk.injEq] at *
  simp only [hk, Nat.mod_eq_of_lt hl, Nat.mod_eq_of_lt hh, e1, e2, true_and, and_true]
  omega

/-- Full scale is positive. -/
theorem maxTicks_pos (c : Config) : 1 ≤ c.maxTicks := by
  have := c.threshDht_lt
  simp only [Config.maxTicks]
  omega

/-- `MAX_TICKS + 1 = 2^W`. -/
theorem maxTicks_add_one (c : Config) : c.maxTicks + 1 = 2 ^ c.w := by
  have := Nat.one_le_two_pow (n := c.w)
  simp only [Config.maxTicks]
  omega

/-! ### The frame space -/

theorem bitAt_unlist (m : Memory) (p q : Nat) :
    (m.unlist p).bitAt q = if q = p then unlistedBit else m.bitAt q := by
  induction m with
  | nil => simp [Memory.unlist, Memory.bitAt]
  | cons head rest ih =>
    obtain ⟨r, c⟩ := head
    simp only [Memory.unlist]
    split_ifs <;> simp only [Memory.bitAt, ih] <;> split_ifs <;> first | rfl | omega

/-- Listing a position that holds the unlisted bit gives it its bit and leaves every other position alone. -/
theorem bitAt_enlist (m : Memory) (p q : Nat) (b : Bool) (h : ∀ c, (p, c) ∉ m) :
    (m.enlist p b).bitAt q = if q = p then b else m.bitAt q := by
  induction m with
  | nil =>
    simp only [Memory.enlist, Memory.bitAt]
    split_ifs <;> first | rfl | omega
  | cons head rest ih =>
    obtain ⟨r, c⟩ := head
    have hr : r ≠ p := fun e => h c (by simp [e])
    have ih := ih fun c hc => h c (by simp [hc])
    simp only [Memory.enlist]
    split_ifs <;> simp only [Memory.bitAt, ih] <;> split_ifs <;> first | rfl | omega

theorem not_mem_unlist (m : Memory) (p : Nat) (c : Bool) : (p, c) ∉ m.unlist p := by
  induction m with
  | nil => simp [Memory.unlist]
  | cons head rest ih =>
    obtain ⟨r, d⟩ := head
    simp only [Memory.unlist]
    split_ifs with h
    · exact ih
    · simp only [List.mem_cons, Prod.mk.injEq, not_or, not_and]
      exact ⟨fun e => absurd e.symm h, ih⟩

/-- A write gives the position written its bit and leaves every other position alone. -/
theorem bitAt_writeBit (m : Memory) (p q : Nat) (b : Bool) :
    (m.writeBit p b).bitAt q = if q = p then b else m.bitAt q := by
  simp only [Memory.writeBit]
  by_cases hb : b = unlistedBit
  · rw [if_pos hb, bitAt_unlist, hb]
  · rw [if_neg hb, bitAt_enlist _ p q b (not_mem_unlist m p), bitAt_unlist]
    split_ifs <;> rfl

/-- A position that exists reads the bit it holds. -/
theorem readBit_of_lt (m : Memory) (p : Nat) (hp : p < 40) : m.readBit p = .ok (m.bitAt p) := by
  simp [Memory.readBit, hp]

/-- The read of one position after a write. -/
theorem readBit_writeBit (m : Memory) (p q : Nat) (b : Bool) (hp : p < 40) :
    (m.writeBit p b).readBit q = if q = p then .ok b else m.readBit q := by
  simp only [Memory.readBit, bitAt_writeBit]
  split_ifs <;> first | rfl | omega

theorem risingFrom_mono {least least' : Nat} {m : Memory} (h : least' ≤ least)
    (hm : Memory.risingFrom least m = true) : Memory.risingFrom least' m = true := by
  cases m with
  | nil => rfl
  | cons head rest =>
    obtain ⟨p, b⟩ := head
    simp only [Memory.risingFrom, Bool.and_eq_true, decide_eq_true_eq] at *
    exact ⟨⟨by omega, hm.1.2⟩, hm.2⟩

theorem risingFrom_unlist (m : Memory) (least p : Nat) (hm : Memory.risingFrom least m = true) :
    Memory.risingFrom least (m.unlist p) = true := by
  induction m generalizing least with
  | nil => rfl
  | cons head rest ih =>
    obtain ⟨q, c⟩ := head
    simp only [Memory.risingFrom, Bool.and_eq_true, decide_eq_true_eq] at hm
    obtain ⟨⟨⟨h1, h2⟩, h3⟩, h4⟩ := hm
    simp only [Memory.unlist]
    split_ifs
    · exact risingFrom_mono (by omega) (ih _ h4)
    · simp [Memory.risingFrom, h1, h2, h3, ih _ h4]

theorem risingFrom_enlist (m : Memory) (least p : Nat) (b : Bool) (hl : least ≤ p) (hp : p < 40)
    (hb : b ≠ unlistedBit) (hn : ∀ c, (p, c) ∉ m) (hm : Memory.risingFrom least m = true) :
    Memory.risingFrom least (m.enlist p b) = true := by
  induction m generalizing least with
  | nil => simp [Memory.enlist, Memory.risingFrom, hl, hp, hb]
  | cons head rest ih =>
    obtain ⟨q, c⟩ := head
    have hq : q ≠ p := fun e => hn c (by simp [e])
    simp only [Memory.risingFrom, Bool.and_eq_true, decide_eq_true_eq] at hm
    obtain ⟨⟨⟨h1, h2⟩, h3⟩, h4⟩ := hm
    simp only [Memory.enlist]
    split_ifs with h
    · simp [Memory.risingFrom, hl, hp, hb, h2, h3, h4, Nat.succ_le_of_lt h]
    · simp [Memory.risingFrom, h1, h2, h3,
        ih (q + 1) (by omega) (fun c hc => hn c (by simp [hc])) h4]

/-- The only operation that changes the frame space keeps its canonical form. -/
theorem wf_writeBit (m : Memory) (p : Nat) (b : Bool) (hp : p < 40) (hm : m.wf = true) :
    (m.writeBit p b).wf = true := by
  simp only [Memory.writeBit]
  split_ifs with hb
  · exact risingFrom_unlist m 0 p hm
  · exact risingFrom_enlist _ 0 p b (Nat.zero_le p) hp hb (not_mem_unlist m p) (risingFrom_unlist m 0 p hm)

theorem bitAt_of_lt_least {least p : Nat} {m : Memory} (hm : Memory.risingFrom least m = true)
    (h : p < least) : m.bitAt p = unlistedBit := by
  induction m generalizing least with
  | nil => rfl
  | cons head rest ih =>
    obtain ⟨q, c⟩ := head
    simp only [Memory.risingFrom, Bool.and_eq_true, decide_eq_true_eq] at hm
    obtain ⟨⟨⟨h1, -⟩, -⟩, h4⟩ := hm
    simp only [Memory.bitAt]
    rw [if_neg (by omega), ih h4 (by omega)]

/-- Frame spaces in the canonical form that hold the same bits are the same data. -/
theorem eq_of_bitAt (m n : Memory) (hm : m.wf = true) (hn : n.wf = true)
    (h : ∀ p, m.bitAt p = n.bitAt p) : m = n := by
  suffices ∀ least, Memory.risingFrom least m = true → Memory.risingFrom least n = true → m = n from
    this 0 hm hn
  clear hm hn
  induction m generalizing n with
  | nil =>
    intro least _ hn
    cases n with
    | nil => rfl
    | cons head rest =>
      simp only [Memory.risingFrom, Bool.and_eq_true, decide_eq_true_eq] at hn
      exact absurd (by simpa [Memory.bitAt] using (h head.1).symm) hn.1.2
  | cons head rest ih =>
    obtain ⟨p, b⟩ := head
    intro least hm hn
    simp only [Memory.risingFrom, Bool.and_eq_true, decide_eq_true_eq] at hm
    obtain ⟨⟨-, hb⟩, hr⟩ := hm
    cases n with
    | nil => exact absurd (by simpa [Memory.bitAt] using h p) hb
    | cons head' rest' =>
      obtain ⟨q, c⟩ := head'
      simp only [Memory.risingFrom, Bool.and_eq_true, decide_eq_true_eq] at hn
      obtain ⟨⟨-, hc⟩, hr'⟩ := hn
      have hp := h p
      have hq := h q
      simp only [Memory.bitAt, if_true] at hp hq
      rcases lt_trichotomy p q with e | e | e
      · rw [if_neg (by omega), bitAt_of_lt_least hr' (by omega)] at hp
        exact absurd hp hb
      · subst e
        rw [if_pos rfl] at hp
        subst hp
        refine congrArg _ (ih rest' (fun r => ?_) (p + 1) hr hr')
        by_cases e : r = p
        · subst e
          rw [bitAt_of_lt_least hr (by omega), bitAt_of_lt_least hr' (by omega)]
        · have hr := h r
          simpa only [Memory.bitAt, if_neg (Ne.symm e)] using hr
      · rw [if_neg (by omega), bitAt_of_lt_least hr (by omega)] at hq
        exact absurd hq.symm hc

/-- The frame space after reset is in the canonical form. -/
theorem wf_reset (c : Config) : (State.resetOf c).frame.wf = true := rfl

/-- A window of which every position reads reads a number of `n` bits. -/
theorem read_of_bits (m : Memory) (n : Nat) : ∀ p, (∀ i, i < n → ∃ b, m.readBit (p + i) = .ok b) →
    ∃ v, m.read p n = .ok v ∧ v < 2 ^ n := by
  induction n with
  | zero => intro p _; exact ⟨0, rfl, by simp⟩
  | succ n ih =>
    intro p h
    obtain ⟨b, hb⟩ := h 0 (by omega)
    obtain ⟨v, hv, hlt⟩ := ih (p + 1) (fun i hi => by
      have := h (i + 1) (by omega)
      rwa [show p + (i + 1) = p + 1 + i by omega] at this)
    refine ⟨b.toNat * 2 ^ n + v, by simp only [Memory.read, Nat.add_zero] at *; rw [hb]; simp [hv], ?_⟩
    have : b.toNat ≤ 1 := by cases b <;> simp
    rw [Nat.pow_succ]
    nlinarith [Nat.mul_le_mul_right (2 ^ n) this]

/-- A window inside the frame space reads a number of `n` bits. -/
theorem read_of_le (m : Memory) (p n : Nat) (h : p + n ≤ 40) : ∃ v, m.read p n = .ok v ∧ v < 2 ^ n :=
  read_of_bits m n p fun i hi => ⟨_, readBit_of_lt m (p + i) (by omega)⟩

/-- `pack8` of a window of which every position reads answers a byte. -/
theorem pack8_of_bits (m : Memory) (p : Nat) (h : ∀ i, i < 8 → ∃ b, m.readBit (p + i) = .ok b) :
    ∃ b, m.pack8 p = .ok b := by
  obtain ⟨v, hv, -⟩ := read_of_bits m 8 p h
  exact ⟨BitVec.ofNat 8 v, by simp only [Memory.pack8, hv]⟩

/-- `pack8` of a window inside the frame space answers a byte. -/
theorem pack8_of_le (m : Memory) (p : Nat) (h : p + 8 ≤ 40) : ∃ b, m.pack8 p = .ok b :=
  pack8_of_bits m p fun i hi => ⟨_, readBit_of_lt m (p + i) (by omega)⟩

/-- The windows of a sensor frame always read. -/
theorem sensorPacket_ok (m : Memory) : ∃ k, m.sensorPacket = .ok k := by
  obtain ⟨hum, h0⟩ := pack8_of_le m 0 (by omega)
  obtain ⟨temp, h1⟩ := pack8_of_le m 16 (by omega)
  obtain ⟨par, h2⟩ := pack8_of_le m 32 (by omega)
  exact ⟨⟨hum, temp, par⟩, by simp only [Memory.sensorPacket, h0, h1, h2]⟩

/-- The windows of a remote frame always read, under both offsets. -/
theorem remoteCommand_ok (m : Memory) (offset : Bool) : ∃ k, m.remoteCommand offset = .ok k := by
  obtain ⟨a0, h0⟩ := pack8_of_le m 0 (by omega)
  obtain ⟨a1, h1⟩ := pack8_of_le m 1 (by omega)
  obtain ⟨c0, h2⟩ := pack8_of_le m 16 (by omega)
  obtain ⟨v, h3, -⟩ := read_of_le m 17 7 (by omega)
  cases offset <;> simp [Memory.remoteCommand, Memory.addressWindow, Memory.commandWindow, h0, h1, h2, h3]

/-! ### The poll of a measurement -/

theorem poll_timedOut (level : Bool) (sel : Line) (s : State) (h : s.limit ≤ s.cnt) :
    poll level sel s = .timedOut := by
  simp [poll, expired, h]

theorem poll_ended (level : Bool) (sel : Line) (s : State) (h : s.cnt < s.limit)
    (hl : lineNow s.env sel ≠ level) : poll level sel s = .ended s.cnt := by
  simp [poll, expired, Nat.not_le.mpr h, hl]

theorem poll_running (level : Bool) (sel : Line) (s : State) (h : s.cnt < s.limit)
    (hl : lineNow s.env sel = level) : poll level sel s = .running := by
  simp [poll, expired, Nat.not_le.mpr h, hl]

/-- The three answers of a poll, with what each says. -/
theorem poll_cases (level : Bool) (sel : Line) (s : State) :
    (poll level sel s = .timedOut ∧ s.limit ≤ s.cnt) ∨
    (poll level sel s = .ended s.cnt ∧ s.cnt < s.limit ∧ lineNow s.env sel ≠ level) ∨
    (poll level sel s = .running ∧ s.cnt < s.limit ∧ lineNow s.env sel = level) := by
  rcases Nat.lt_or_ge s.cnt s.limit with h | h
  · by_cases hl : lineNow s.env sel = level
    · exact .inr (.inr ⟨poll_running _ _ _ h hl, h, hl⟩)
    · exact .inr (.inl ⟨poll_ended _ _ _ h hl, h, hl⟩)
  · exact .inl ⟨poll_timedOut _ _ _ h, h⟩

/-! ### The step -/

/-- At a tick with `rst = 1` the step is the reset. -/
theorem step_reset (s : State) (h : rstNow s.env = true) : step s = .next (applyReset s) := by
  simp [step, blockStep, h]

/-- With `rst = 0` and `busy = 1` the step is the engine's. -/
theorem step_engine (s : State) (h : rstNow s.env = false) (hb : s.busy = true) :
    step s = engineStep s := by
  simp [step, blockStep, h, hb]

/-- With `rst = 0` and `busy = 0` the step is the port's. -/
theorem step_port (s : State) (h : rstNow s.env = false) (hb : s.busy = false) :
    step s = portStep s := by
  simp [step, blockStep, h, hb]

/-- What a step can be: a reset, the engine's, a tick of an idle port, an accepted operation, or the refusal of a
reserved word. -/
theorem step_cases (s t : State) (h : step s = .next t) :
    (rstNow s.env = true ∧ t = applyReset s) ∨
    (rstNow s.env = false ∧ s.busy = true ∧ engineStep s = .next t) ∨
    (rstNow s.env = false ∧ s.busy = false ∧ ∃ rest, t = idleTick rest s ∧
      (s.env.host = .idle :: rest ∨ s.env.host = [] ∧ rest = [])) ∨
    (rstNow s.env = false ∧ s.busy = false ∧ ∃ w a b rest i, s.env.host = .command w a b :: rest ∧
      decode w = .ok i ∧ exec i (sampleCommand a b rest s) = .next t) ∨
    (rstNow s.env = false ∧ s.busy = false ∧ ∃ w a b rest e, s.env.host = .command w a b :: rest ∧
      decode w = .error e ∧ t = refuse (sampleCommand a b rest s)) := by
  cases hr : rstNow s.env with
  | true =>
    rw [step_reset s hr, Host.Outcome.next.injEq] at h
    exact .inl ⟨rfl, h.symm⟩
  | false =>
    cases hb : s.busy with
    | true =>
      rw [step_engine s hr hb] at h
      exact .inr (.inl ⟨rfl, rfl, h⟩)
    | false =>
      rw [step_port s hr hb, portStep] at h
      right; right
      split at h
      · rename_i he
        rw [Host.Outcome.next.injEq] at h
        exact .inl ⟨rfl, rfl, [], h.symm, .inr ⟨he, rfl⟩⟩
      · rename_i rest he
        rw [Host.Outcome.next.injEq] at h
        exact .inl ⟨rfl, rfl, rest, h.symm, .inl he⟩
      · rename_i w a b rest he
        rw [runCommand] at h
        split at h
        · rename_i i hd
          exact .inr (.inl ⟨rfl, rfl, w, a, b, rest, i, he, hd, h⟩)
        · rename_i e hd
          rw [Host.Outcome.next.injEq] at h
          exact .inr (.inr ⟨rfl, rfl, w, a, b, rest, e, he, hd, h.symm⟩)

end Sys2Proof.Laws
end

