-- ==== Sys2Proof/Laws/Engine.lean ====
section
/-! SUPPORT. Everything one step of the engine can do, said once: the rows of the tables of 43_dht11.md R107 and
44_irremote.md R120, and the loop of `ET_MEASURE`. -/

namespace Sys2Proof.Laws

open Sys2Proof Sys2Proof.Machine

/-- `Move s t`: the engine takes `s` to `t`. Each constructor names the state it leaves, what the poll found, and
the state it gives. -/
inductive Move (s : State) : State → Prop where
  | startLowTick (d : s.dhtState = .startLow) (h : s.cnt < s.limit) : Move s (letTickPass s)
  | startLowEnd (d : s.dhtState = .startLow) (h : s.limit ≤ s.cnt) :
      Move s (startCount s.cfg.tStartHigh { noResponse s with dhtState := .startHigh, dhtOut := true })
  | startHighTick (d : s.dhtState = .startHigh) (h : s.cnt < s.limit) : Move s (letTickPass s)
  | startHighEnd (d : s.dhtState = .startHigh) (h : s.limit ≤ s.cnt) :
      Move s (armFull (startFrame 40 { noResponse s with dhtOe := false, dhtState := .await 0 }))
  | awaitTick (p : Fin 4) (d : s.dhtState = .await p) (h : s.cnt < s.limit)
      (l : lineNow s.env .sensor = (p.val % 2 == 1)) : Move s (letTickPass s)
  | awaitEnd (p : Fin 4) (d : s.dhtState = .await p) (h : s.cnt < s.limit)
      (l : lineNow s.env .sensor ≠ (p.val % 2 == 1)) :
      Move s (armFull { noResponse s with dhtState := dhtAfterPhase p })
  | awaitTimeout (p : Fin 4) (d : s.dhtState = .await p) (h : s.limit ≤ s.cnt) :
      Move s (raiseStatus .dht .timeoutError s)
  | cellLowTick (n : Fin 40) (d : s.dhtState = .sampleLow n) (h : s.cnt < s.limit)
      (l : lineNow s.env .sensor = false) : Move s (letTickPass s)
  | cellLowEnd (n : Fin 40) (d : s.dhtState = .sampleLow n) (h : s.cnt < s.limit)
      (l : lineNow s.env .sensor = true) : Move s (armFull { noResponse s with dhtState := .sampleHigh n })
  | cellLowTimeout (n : Fin 40) (d : s.dhtState = .sampleLow n) (h : s.limit ≤ s.cnt) :
      Move s (raiseStatus .dht .timeoutError s)
  | cellHighTick (n : Fin 40) (d : s.dhtState = .sampleHigh n) (h : s.cnt < s.limit)
      (l : lineNow s.env .sensor = true) : Move s (letTickPass s)
  | cellHighEnd (n : Fin 40) (d : s.dhtState = .sampleHigh n) (h : s.cnt < s.limit)
      (l : lineNow s.env .sensor = false) :
      Move s (dhtNextCell n (storeBit n.val (classify s.cnt s.cfg.threshDht) (noResponse s)))
  | cellHighTimeout (n : Fin 40) (d : s.dhtState = .sampleHigh n) (h : s.limit ≤ s.cnt) :
      Move s (raiseStatus .dht .timeoutError s)
  | sumGood (p : SensorPacket) (d : s.dhtState = .validating) (f : s.frame.sensorPacket = .ok p)
      (c : p.temp + p.hum = p.par) : Move s (dhtDone p s)
  | sumBad (p : SensorPacket) (d : s.dhtState = .validating) (f : s.frame.sensorPacket = .ok p)
      (c : p.temp + p.hum ≠ p.par) : Move s (raiseStatus .dht .checksumError s)
  | markTick (n : Fin 32) (d : s.dhtState.resting = true) (i : s.irState = .sampleLow n)
      (h : s.cnt < s.limit) (l : lineNow s.env .receiver = false) : Move s (letTickPass s)
  | markEnd (n : Fin 32) (d : s.dhtState.resting = true) (i : s.irState = .sampleLow n)
      (h : s.cnt < s.limit) (l : lineNow s.env .receiver = true) :
      Move s (armFull { noResponse s with irState := .sampleHigh n })
  | markTimeout (n : Fin 32) (d : s.dhtState.resting = true) (i : s.irState = .sampleLow n)
      (h : s.limit ≤ s.cnt) : Move s (raiseStatus .ir .timeoutError s)
  | spaceTick (n : Fin 32) (d : s.dhtState.resting = true) (i : s.irState = .sampleHigh n)
      (h : s.cnt < s.limit) (l : lineNow s.env .receiver = true) : Move s (letTickPass s)
  | spaceEnd (n : Fin 32) (d : s.dhtState.resting = true) (i : s.irState = .sampleHigh n)
      (h : s.cnt < s.limit) (l : lineNow s.env .receiver = false) :
      Move s (irNextInterval n (storeBit n.val (classify s.cnt s.cfg.threshIr) (noResponse s)))
  | spaceTimeout (n : Fin 32) (d : s.dhtState.resting = true) (i : s.irState = .sampleHigh n)
      (h : s.limit ≤ s.cnt) : Move s (raiseStatus .ir .timeoutError s)
  | allOnes (c : RemoteCommand) (d : s.dhtState.resting = true) (i : s.irState = .validating)
      (f : s.frame.remoteCommand s.irOffset = .ok c) (a : c.addr = 0xFF) :
      Move s (raiseStatus .ir .checksumError s)
  | overwrite (c : RemoteCommand) (d : s.dhtState.resting = true) (i : s.irState = .validating)
      (f : s.frame.remoteCommand s.irOffset = .ok c) (a : c.addr ≠ 0xFF) (u : s.irUnread = true) :
      Move s (raiseStatus .ir .overwriteError s)
  | commandGood (c : RemoteCommand) (d : s.dhtState.resting = true) (i : s.irState = .validating)
      (f : s.frame.remoteCommand s.irOffset = .ok c) (a : c.addr ≠ 0xFF) (u : s.irUnread = false) :
      Move s (irDone c s)
  | measureTick (d : s.dhtState.resting = true) (i : s.irState.resting = true) (h : s.cnt < s.limit)
      (l : lineNow s.env s.measSel = s.measLevel) : Move s (letTickPass s)
  | measureEnd (d : s.dhtState.resting = true) (i : s.irState.resting = true) (h : s.cnt < s.limit)
      (l : lineNow s.env s.measSel ≠ s.measLevel) : Move s (finish (measureResponse s.cnt false) s)
  | measureTimeout (d : s.dhtState.resting = true) (i : s.irState.resting = true) (h : s.limit ≤ s.cnt) :
      Move s (finish (measureResponse s.cnt true) s)

theorem measureStep_move (s : State) (d : s.dhtState.resting = true) (i : s.irState.resting = true) :
    Move s (measureStep s) := by
  unfold measureStep
  rcases poll_cases s.measLevel s.measSel s with ⟨e, h⟩ | ⟨e, h, l⟩ | ⟨e, h, l⟩ <;> simp only [e]
  · exact .measureTimeout d i h
  · exact .measureEnd d i h l
  · exact .measureTick d i h l

theorem irStep_move (s t : State) (d : s.dhtState.resting = true) (h : irStep s = .next t) : Move s t := by
  unfold irStep at h
  split at h
  · rename_i n i
    rw [Host.Outcome.next.injEq] at h
    subst h
    unfold irSampleLow
    rcases poll_cases false .receiver s with ⟨e, h⟩ | ⟨e, h, l⟩ | ⟨e, h, l⟩ <;> simp only [e]
    · exact .markTimeout n d i h
    · exact .markEnd n d i h (by simpa using l)
    · exact .markTick n d i h l
  · rename_i n i
    rw [Host.Outcome.next.injEq] at h
    subst h
    unfold irSampleHigh
    rcases poll_cases true .receiver s with ⟨e, h⟩ | ⟨e, h, l⟩ | ⟨e, h, l⟩ <;> simp only [e]
    · exact .spaceTimeout n d i h
    · exact .spaceEnd n d i h (by simpa using l)
    · exact .spaceTick n d i h l
  · rename_i i
    unfold irValidate at h
    split at h
    · cases h
    · rename_i c f
      rw [Host.Outcome.next.injEq] at h
      subst h
      split_ifs with a u
      · exact .allOnes c d i f a
      · exact .overwrite c d i f a u
      · exact .commandGood c d i f a (by simpa using u)
  all_goals
    rename_i i
    rw [Host.Outcome.next.injEq] at h
    subst h
    exact measureStep_move s d (by rw [i]; rfl)

/-- What a step of the engine that answers a next state has done. -/
theorem engineStep_move (s t : State) (h : engineStep s = .next t) : Move s t := by
  unfold engineStep at h
  split at h
  · rename_i d
    rw [Host.Outcome.next.injEq] at h
    subst h
    unfold dhtStartLow expired
    split_ifs with e
    · exact .startLowEnd d (by simpa using e)
    · exact .startLowTick d (by simpa using e)
  · rename_i d
    rw [Host.Outcome.next.injEq] at h
    subst h
    unfold dhtStartHigh expired
    split_ifs with e
    · exact .startHighEnd d (by simpa using e)
    · exact .startHighTick d (by simpa using e)
  · rename_i p d
    rw [Host.Outcome.next.injEq] at h
    subst h
    unfold dhtAwait
    rcases poll_cases (p.val % 2 == 1) .sensor s with ⟨e, h⟩ | ⟨e, h, l⟩ | ⟨e, h, l⟩ <;> simp only [e]
    · exact .awaitTimeout p d h
    · exact .awaitEnd p d h l
    · exact .awaitTick p d h l
  · rename_i n d
    rw [Host.Outcome.next.injEq] at h
    subst h
    unfold dhtSampleLow
    rcases poll_cases false .sensor s with ⟨e, h⟩ | ⟨e, h, l⟩ | ⟨e, h, l⟩ <;> simp only [e]
    · exact .cellLowTimeout n d h
    · exact .cellLowEnd n d h (by simpa using l)
    · exact .cellLowTick n d h l
  · rename_i n d
    rw [Host.Outcome.next.injEq] at h
    subst h
    unfold dhtSampleHigh
    rcases poll_cases true .sensor s with ⟨e, h⟩ | ⟨e, h, l⟩ | ⟨e, h, l⟩ <;> simp only [e]
    · exact .cellHighTimeout n d h
    · exact .cellHighEnd n d h (by simpa using l)
    · exact .cellHighTick n d h l
  · rename_i d
    unfold dhtValidate at h
    split at h
    · cases h
    · rename_i p f
      rw [Host.Outcome.next.injEq] at h
      subst h
      split_ifs with c
      · exact .sumGood p d f c
      · exact .sumBad p d f c
  all_goals
    rename_i d
    exact irStep_move s t (by rw [d]; rfl) h

end Sys2Proof.Laws
end

