-- ==== Sys2Proof/Laws/PerInstr.lean ====
section
/-! SUPPORT. A statement for every operation, made one operation at a time: the word of a well-formed operation is
selected by the operation's own row of 30_encoding.md R66. -/

namespace Sys2Proof.Laws.EncodeMatchesRow

open Sys2Proof

/-- The word of `i` is selected by the row of `i`. -/
def Statement (i : Instr) : Prop :=
  i.wellFormed = true → (opcodeRows[i.row]?).map (fun r => r.selects (encode i)) = some true

theorem cntReset : Statement .cntReset := fun _ => rfl
theorem cntArm : Statement .cntArm := fun _ => rfl
theorem cntExpired : Statement .cntExpired := fun _ => rfl
theorem cntTicks : Statement .cntTicks := fun _ => rfl
theorem etArm : Statement .etArm := fun _ => rfl
theorem etMeasure (level : Bool) (sel : Line) : Statement (.etMeasure level sel) := by
  cases level <;> cases sel <;> exact fun _ => rfl
theorem etCount : Statement .etCount := fun _ => rfl
theorem pcClassify : Statement .pcClassify := fun _ => rfl
theorem faClear (len : Nat) : Statement (.faClear len) := fun h => by
  have h : len < 64 := by simpa [Instr.wellFormed] using h
  interval_cases len <;> rfl
theorem faPush (bit : Bool) : Statement (.faPush bit) := by
  cases bit <;> exact fun _ => rfl
theorem faPack (start : Nat) : Statement (.faPack start) := fun h => by
  have h : start < 64 := by simpa [Instr.wellFormed] using h
  interval_cases start <;> rfl
theorem dhtAcquire : Statement .dhtAcquire := fun _ => rfl
theorem dhtReadTemp : Statement .dhtReadTemp := fun _ => rfl
theorem dhtReadHum : Statement .dhtReadHum := fun _ => rfl
theorem irAvail : Statement .irAvail := fun _ => rfl
theorem irWait : Statement .irWait := fun _ => rfl
theorem irReadCmd : Statement .irReadCmd := fun _ => rfl
theorem irReadAddr : Statement .irReadAddr := fun _ => rfl
theorem irEdge : Statement .irEdge := fun _ => rfl
theorem irClrEdge : Statement .irClrEdge := fun _ => rfl

end Sys2Proof.Laws.EncodeMatchesRow
end

