-- ==== Sys2Proof/Tests/Slice0.lean ====
section
/-! SUPPORT. The model's own tests. Expected results are those of 95_test_vectors.md (V-…) or are worked out by hand
from the rule named. After the tests: for every statement with hypotheses, a theorem whose name begins `witness_`
that meets them all together. -/

namespace Sys2Proof.Tests

open Sys2Proof Sys2Proof.Machine

/-! ### Well-formedness and encoding -/

theorem test_faClear_operand_too_wide : (Instr.faClear 64).wellFormed = false := by decide
theorem test_faPack_operand_too_wide : (Instr.faPack 64).wellFormed = false := by decide
theorem test_faClear_operand_widest : (Instr.faClear 63).wellFormed = true := by decide

/-! Words written out bit by bit from 30_encoding.md R64 to R66: unit, func, imm. -/

theorem test_decode_cntReset : decode 0b0000_0000_00000000 = .ok .cntReset := by rfl
theorem test_decode_cntArm : decode 0b0000_0001_00000000 = .ok .cntArm := by rfl
theorem test_decode_cntExpired : decode 0b0000_0010_00000000 = .ok .cntExpired := by rfl
theorem test_decode_cntTicks : decode 0b0000_0011_00000000 = .ok .cntTicks := by rfl
theorem test_decode_etArm : decode 0b0001_0000_00000000 = .ok .etArm := by rfl
theorem test_decode_etMeasure : decode 0b0001_0001_00000001 = .ok (.etMeasure true .sensor) := by rfl
theorem test_decode_etMeasure_sel : decode 0b0001_0001_00000010 = .ok (.etMeasure false .receiver) := by rfl
theorem test_decode_etCount : decode 0b0001_0010_00000000 = .ok .etCount := by rfl
theorem test_decode_pcClassify : decode 0b0010_0000_00000000 = .ok .pcClassify := by rfl
theorem test_decode_faClear : decode 0b0011_0000_00101000 = .ok (.faClear 40) := by rfl
theorem test_decode_faPush : decode 0b0011_0001_00000001 = .ok (.faPush true) := by rfl
theorem test_decode_faPack : decode 0b0011_0010_00011000 = .ok (.faPack 24) := by rfl
theorem test_decode_dhtAcquire : decode 0b0100_0000_00000000 = .ok .dhtAcquire := by rfl
theorem test_decode_dhtReadTemp : decode 0b0100_0001_00000000 = .ok .dhtReadTemp := by rfl
theorem test_decode_dhtReadHum : decode 0b0100_0010_00000000 = .ok .dhtReadHum := by rfl
theorem test_decode_irAvail : decode 0b0101_0000_00000000 = .ok .irAvail := by rfl
theorem test_decode_irWait : decode 0b0101_0001_00000000 = .ok .irWait := by rfl
theorem test_decode_irReadCmd : decode 0b0101_0010_00000000 = .ok .irReadCmd := by rfl
theorem test_decode_irReadAddr : decode 0b0101_0011_00000000 = .ok .irReadAddr := by rfl
theorem test_decode_irEdge : decode 0b0101_0100_00000000 = .ok .irEdge := by rfl
theorem test_decode_irClrEdge : decode 0b0101_0101_00000000 = .ok .irClrEdge := by rfl

/-- V-ENC-2, V-ENC-6: reserved words, each by its reason. -/
theorem test_decode_reserved :
    decode 0x1104 = .error (.imm 4) ∧ decode 0x6000 = .error (.unit 6) ∧ decode 0x0400 = .error (.func 0 4) ∧
    decode 0x4300 = .error (.func 4 3) ∧ decode 0x5600 = .error (.func 5 6) ∧ decode 0x3040 = .error (.imm 64) ∧
    decode 0x3102 = .error (.imm 2) ∧ decode 0xF000 = .error (.unit 15) := by
  refine ⟨?_, ?_, ?_, ?_, ?_, ?_, ?_, ?_⟩ <;> rfl

theorem test_encode_etMeasure : encode (.etMeasure true .receiver) = 0x1103 := by decide
theorem test_encode_faClear : encode (.faClear 40) = 0x3028 := by decide
theorem test_table_word : decodeTableWord 16 0x3218 = some (.faPack 24) := by decide
theorem test_table_word_reserved : decodeTableWord 16 0x1104 = none := by decide

/-- 30_encoding.md R67, R68. -/
theorem test_codes :
    Status.overwriteError.code = 3 ∧ (DhtState.sampleHigh 39).code = 0x167 ∧
    (IrState.sampleLow 31).code = 0x11F := by decide

/-! ### Operations, under CFG-T -/

/-- The reset state under CFG-T. -/
def base : State := State.resetOf Config.cfgT

/-- The next state, if there is one. -/
def nextOf (o : Host.Outcome State Fault Refusal) : Option State :=
  match o with
  | .next s => some s
  | .fault _ => none
  | .refused _ => none

/-- The response of an operation. -/
def answer (i : Instr) (s : State) : Option Response := (nextOf (exec i s)).map State.rsp

/-- The counter and its bound after an operation. -/
def counterAfter (i : Instr) (s : State) : Option (Nat × Nat) :=
  (nextOf (exec i s)).map fun t => (t.cnt, t.limit)

/-- `base` with a count, a bound and wide operands. -/
def counting (cnt limit dinA dinB : Nat) : State :=
  { base with cnt := cnt, limit := limit, env := { base.env with dinA := dinA, dinB := dinB } }

/-- The frame space that holds `bits` from position 0 on, in its canonical form. -/
def spaceOf (bits : List Bool) : Memory :=
  ((List.range bits.length).zip bits).filter fun e => decide (e.2 ≠ unlistedBit)

/-- A frame of length `len` into which `bits` have been pushed. -/
def framed (len : Nat) (bits : List Bool) : State :=
  { base with
    frame := spaceOf bits
    frameLen := len, frameWr := bits.length }

/-- The bits 1,0,1,0,0,1,0,1 of V-FA-1. -/
def bitsA5 : List Bool := [true, false, true, false, false, true, false, true]

/-- V-ET-3. -/
theorem test_cntReset : counterAfter .cntReset (counting 200 255 0 0) = some (0, 255) := by decide
/-- V-ET-6: the count is not pulled down. -/
theorem test_cntArm : counterAfter .cntArm (counting 60 100 20 0) = some (60, 20) := by decide
/-- 30_encoding.md R65: `din_a` carries `W` bits; 0x132 is 0x32 under CFG-T. -/
theorem test_cntArm_width : counterAfter .cntArm (counting 0 255 0x132 0) = some (0, 50) := by decide
/-- V-ET-2, V-ET-4. -/
theorem test_cntExpired :
    answer .cntExpired (counting 255 255 0 0) = some ⟨true, 1, false, .ok, false⟩ ∧
    answer .cntExpired (counting 49 50 0 0) = some ⟨true, 0, false, .ok, false⟩ := by decide
/-- V-ET-1. -/
theorem test_cntTicks : answer .cntTicks (counting 10 255 0 0) = some ⟨true, 10, false, .ok, false⟩ := by decide
/-- V-ET-9. -/
theorem test_etArm : counterAfter .etArm (counting 255 20 0 0) = some (0, 255) := by decide
/-- V-ET-17. -/
theorem test_etCount : answer .etCount (counting 100 255 0 0) = some ⟨true, 100, false, .ok, false⟩ := by decide
/-- V-PC-1, V-PC-2, V-PC-3: a tie is 0. -/
theorem test_pcClassify :
    answer .pcClassify (counting 0 255 40 40) = some ⟨true, 0, false, .ok, false⟩ ∧
    answer .pcClassify (counting 0 255 41 40) = some ⟨true, 1, false, .ok, false⟩ ∧
    answer .pcClassify (counting 0 255 39 40) = some ⟨true, 0, false, .ok, false⟩ := by decide
/-- V-FA-5. -/
theorem test_faClear_refused :
    answer (.faClear 0) base = some ⟨true, 0, false, .ok, true⟩ ∧
    answer (.faClear 41) base = some ⟨true, 0, false, .ok, true⟩ := by decide
/-- V-FA-9: a cleared frame is not fully populated. -/
theorem test_faClear :
    (nextOf (execAll [.faClear 8, .faPack 0] (framed 8 bitsA5))).map State.rsp =
      some ⟨true, 0, false, .ok, true⟩ := by decide
/-- V-FA-2, V-FA-4. -/
theorem test_faPush_refused :
    answer (.faPush true) (framed 8 bitsA5) = some ⟨true, 0, false, .ok, true⟩ ∧
    answer (.faPush true) base = some ⟨true, 0, false, .ok, true⟩ := by decide
/-- V-FA-7: the push that completes a frame of 9, and its two windows, one of them unaligned. -/
theorem test_faPush :
    (nextOf (execAll [.faPush false, .faPack 1] (framed 9 [false, true, true, true, true, true, true, true]))).map
      State.rsp = some ⟨true, 0xFE, false, .ok, false⟩ := by decide
/-- V-FA-1. -/
theorem test_faPack : answer (.faPack 0) (framed 8 bitsA5) = some ⟨true, 0xA5, false, .ok, false⟩ := by decide
/-- V-FA-3, V-FA-6. -/
theorem test_faPack_refused :
    answer (.faPack 1) (framed 8 bitsA5) = some ⟨true, 0, false, .ok, true⟩ ∧
    answer (.faPack 0) (framed 9 bitsA5) = some ⟨true, 0, false, .ok, true⟩ := by decide
/-- 43_dht11.md R110, R111: at acceptance the line is driven low and the counter times `T_START_LOW = 200`. -/
theorem test_dhtAcquire :
    (nextOf (exec .dhtAcquire (counting 9 100 0 0))).map
      (fun t => (t.busy, t.dhtState, t.dhtOe, t.dhtOut, t.cnt, t.limit)) =
      some (true, .startLow, true, false, 0, 200) := by decide
/-- P2, step 3. -/
theorem test_dhtReads :
    answer .dhtReadTemp { base with dhtTemp := 0x18, dhtHum := 0x37 } = some ⟨true, 0x18, false, .ok, false⟩ ∧
    answer .dhtReadHum { base with dhtTemp := 0x18, dhtHum := 0x37 } = some ⟨true, 0x37, false, .ok, false⟩ := by
  decide
/-- V-IR-0. -/
theorem test_irAvail_irWait_idle :
    answer .irAvail base = some ⟨true, 0, false, .ok, false⟩ ∧
    answer .irWait base = some ⟨true, 0, false, .ok, true⟩ := by decide
/-- V-IR-9: `Done` is not left by `IR_WAIT`. -/
theorem test_irWait_done :
    (nextOf (exec .irWait { base with irState := .done })).map (fun t => (t.irState, t.rsp.ill)) =
      some (.done, true) := by decide
/-- V-IR-1, up to the acceptance of `IR_WAIT`. -/
theorem test_irEdge_irWait :
    (nextOf (execAll [.irEdge, .irWait] (counting 100 255 0 0))).map
      (fun t => (t.irState, t.irEdgeTicks, t.busy, t.frameLen, t.cnt, t.limit)) =
      some (.sampleLow 0, 100, true, 32, 0, 255) := by decide
/-- V-IR-1r. -/
theorem test_irReads :
    (nextOf (execAll [.irReadCmd, .irReadAddr, .irReadCmd]
      { base with irUnread := true, irAddr := 0x20, irCmd := 0xA8 })).map
      (fun t => (t.rsp, t.irUnread)) = some (⟨true, 0xA8, false, .ok, false⟩, false) ∧
    answer .irReadAddr { base with irAddr := 0x20 } = some ⟨true, 0x20, false, .ok, false⟩ := by decide
/-- V-IR-5c, its first four commands. -/
theorem test_irClrEdge :
    (nextOf (execAll [.irEdge, .irClrEdge, .irAvail] base)).map (fun t => (t.irState, t.rsp)) =
      some (.idle, ⟨true, 0, false, .ok, false⟩) := by decide
/-- 44_irremote.md R122: other values are kept. -/
theorem test_irClrEdge_done :
    (nextOf (exec .irClrEdge { base with irState := .done })).map State.irState = some .done := by decide

/-! ### Single steps -/

/-- `base` with the port closed and the sensor line at `level` at this tick. -/
def sensorAt (level : Bool) (d : DhtState) (cnt limit : Nat) : State :=
  { base with
    busy := true, dhtState := d, cnt := cnt, limit := limit, frameLen := 40
    env := { base.env with dhtWave := [level] } }

/-- `base` with the port closed and the receiver line at `level` at this tick. -/
def receiverAt (level : Bool) (i : IrState) (cnt limit : Nat) : State :=
  { base with
    busy := true, irState := i, cnt := cnt, limit := limit, frameLen := 32
    env := { base.env with irWave := [level] } }

/-- `base` with `ET_MEASURE level, 0` running and the sensor line at `line`. -/
def measuringAt (level line : Bool) (cnt limit : Nat) : State :=
  { sensorAt line .idle cnt limit with measLevel := level, frameLen := 0 }

/-- V-ET-12: the line is away from the level at acceptance. -/
theorem test_measure_ends :
    (nextOf (step (measuringAt true false 0 255))).map (fun t => (t.rsp, t.busy, t.env.now)) =
      some (⟨true, 0, false, .ok, false⟩, false, 0) := by decide
/-- V-ET-14: a tie is a timeout. -/
theorem test_measure_tie :
    (nextOf (step (measuringAt true false 255 255))).map State.rsp = some ⟨true, 255, true, .ok, false⟩ := by decide
/-- V-DHT-7: 40 ticks are a 0 and 41 ticks a 1. -/
theorem test_sampleHigh_threshold :
    ((nextOf (step { sensorAt false (.sampleHigh 0) 40 255 with frame := [(0, true)] })).map
      fun t => (t.frame, t.dhtState)) =
      some ([], .sampleLow 1) ∧
    ((nextOf (step (sensorAt false (.sampleHigh 0) 41 255))).map fun t => (t.frame, t.dhtState)) =
      some ([(0, true)], .sampleLow 1) := by decide
/-- V-DHT-8b: a tie is a timeout. -/
theorem test_sampleHigh_timeout :
    (nextOf (step (sensorAt false (.sampleHigh 0) 255 255))).map (fun t => (t.rsp, t.dhtState, t.frameLen)) =
      some (⟨true, 0, false, .timeoutError, false⟩, .failed, 0) := by decide
/-- 43_dht11.md R112: phase 1 measures level 1, so a line at 0 ends it. -/
theorem test_await_levels :
    (nextOf (step (sensorAt false (.await 1) 30 255))).map State.dhtState = some (.await 2) ∧
    (nextOf (step (sensorAt false (.await 0) 30 255))).map State.cnt = some 31 := by decide
/-- V-IR-10: a mark of no length. -/
theorem test_mark_empty :
    (nextOf (step (receiverAt true (.sampleLow 0) 0 255))).map (fun t => (t.irState, t.env.now)) =
      some (.sampleHigh 0, 0) := by decide

/-- The bits of a byte, most significant first. -/
def bitsOf (b : Byte) : List Bool := (List.range 8).map b.getMsbD

/-- A frame whose five, or four, bytes are given. -/
def frameOf (bytes : List Byte) : Memory := spaceOf (bytes.flatMap bitsOf)

/-- `Validating` of the sensor protocol on a frame of the bytes given. -/
def sensorFrame (bytes : List Byte) : State :=
  { sensorAt true .validating 70 255 with frame := frameOf bytes, frameWr := 40 }

/-- `Validating` of the remote protocol on a frame of the bytes given. -/
def remoteFrame (bytes : List Byte) (offset unread : Bool) : State :=
  { receiverAt true .validating 169 255 with
    frame := frameOf bytes, frameWr := 32, irOffset := offset, irUnread := unread }

/-- V-DHT-6: the sum is taken mod 256 and the padding bytes are ignored. -/
theorem test_validate_sum :
    (nextOf (step (sensorFrame [0xF0, 0xAA, 0x20, 0x55, 0x10]))).map
      (fun t => (t.rsp.status, t.dhtHum, t.dhtTemp, t.dhtPar)) = some (.ok, 0xF0, 0x20, 0x10) := by decide
/-- V-DHT-2: on a bad sum the bytes are kept. -/
theorem test_validate_bad_sum :
    (nextOf (step { sensorFrame [0x40, 0x00, 0x19, 0x00, 0x5A] with dhtHum := 0x37 })).map
      (fun t => (t.rsp.status, t.dhtState, t.dhtHum)) = some (.checksumError, .failed, 0x37) := by decide
/-- V-IR-1 and V-IR-2: the same frame under both window offsets. -/
theorem test_validate_windows :
    (nextOf (step (remoteFrame [0x20, 0xDF, 0xA8, 0xD7] false false))).map
      (fun t => (t.irAddr, t.irCmd, t.irOffset)) = some (0x20, 0xA8, true) ∧
    (nextOf (step (remoteFrame [0x20, 0xDF, 0xA8, 0xD7] true false))).map
      (fun t => (t.irAddr, t.irCmd, t.irOffset)) = some (0x41, 0x50, true) := by decide
/-- V-IR-3 and V-IR-8: an unread command is an overwrite, but the address check comes first. -/
theorem test_validate_order :
    (nextOf (step (remoteFrame [0x10, 0xEF, 0x58, 0xA7] true true))).map (fun t => t.rsp.status) =
      some .overwriteError ∧
    (nextOf (step (remoteFrame [0xFF, 0x80, 0x12, 0x34] true true))).map (fun t => t.rsp.status) =
      some .checksumError := by decide
/-- V-ENC-4: `FA_CLEAR 41`, presented as a word, is accepted and refused in one step. -/
theorem test_step_refused_word :
    (nextOf (step (base.withFetchWord 16 0x3029))).map (fun t => (t.rsp.ill, t.env.host)) =
      some (true, []) := by decide
/-- The first step after reset runs the word presented. -/
theorem test_step_first_word :
    (nextOf (step (State.reset.withFetchWord 16 0x3028))).map (fun t => (t.frameLen, t.rsp.valid)) =
      some (40, true) := by rfl
/-- The frame space after reset is canonical. -/
theorem test_reset_wf : State.reset.frame.wf = true := by rfl
/-- A write of the unlisted bit removes the entry, and every position reads. -/
theorem test_frame_space :
    Memory.writeBit [(3, true), (7, true)] 3 false = [(7, true)] ∧
    Memory.writeBit [(3, true), (7, true)] 5 true = [(3, true), (5, true), (7, true)] ∧
    (∀ p < 40, State.reset.frame.readBit p = .ok false) ∧
    State.reset.frame.readBit 40 = .error (.noSuchPosition 40) := by
  refine ⟨by decide, by decide, fun p hp => ?_, rfl⟩
  simp [Memory.readBit, hp, State.reset, State.resetOf, Memory.bitAt, unlistedBit]
/-- V-RST-1 on an acquisition in flight. -/
theorem test_reset_in_flight :
    (nextOf (step { sensorAt true (.sampleHigh 7) 12 255 with
      irOffset := true, dhtHum := 5, env := { base.env with now := 99, rstWave := [true] } })).map
      (fun t => (t.dhtState, t.busy, t.irOffset, t.dhtHum, t.cnt, t.env.now)) =
      some (.idle, false, false, 0, 0, 0) := by decide
/-- V-ET-2: the count stops at its bound. -/
theorem test_tick_stops :
    (nextOf (step (counting 254 255 0 0))).map State.cnt = some 255 ∧
    (nextOf (step (counting 255 255 0 0))).map State.cnt = some 255 := by decide

/-! ### Witnesses: states and operands that meet the hypotheses of the statements -/

theorem witness_DecodeOfEncodeIsIdentity :
    (Instr.faPack 63).wellFormed = true ∧ (Instr.faClear 0).wellFormed = true := by decide
theorem witness_EncodeOfDecodeIsIdentity : decode 0x323F = .ok (.faPack 63) := by rfl
theorem witness_DecoderFollowsOpcodeTable :
    decode 0x1103 = .ok (.etMeasure true .receiver) ∧ (∃ r ∈ opcodeRows, r.selects 0x1103 = true) ∧
    ¬∃ r ∈ opcodeRows, r.selects 0x1104 = true := by
  refine ⟨by rfl, by decide, by decide⟩
theorem witness_OpcodeRowsNeverOverlap :
    opcodeRows[(19 : Fin 20).val]? = some ⟨"IR_CLR_EDGE", 0x5500, 0xFFFF⟩ ∧
    (⟨"IR_CLR_EDGE", 0x5500, 0xFFFF⟩ : OpcodeRow).selects 0x5500 = true := by decide
theorem witness_CodesAreDistinct :
    (DhtState.await 3).code = (DhtState.await 3).code ∧
    (IrState.sampleHigh 31).code = (IrState.sampleHigh 31).code := ⟨rfl, rfl⟩

/-- `base` with a word presented. -/
def presented (w : Command) : State := { base with env := { base.env with host := [.command w 41 40] } }

theorem witness_StepRunsDecodedCommand :
    rstNow (presented 0x2000).env = false ∧ (presented 0x2000).busy = false ∧
    (presented 0x2000).env.host = [.command 0x2000 41 40] ∧ decode 0x2000 = .ok .pcClassify :=
  ⟨rfl, rfl, rfl, rfl⟩
theorem witness_ReservedWordAnswersIll :
    rstNow (presented 0x1104).env = false ∧ (presented 0x1104).busy = false ∧
    (presented 0x1104).env.host = [.command 0x1104 41 40] ∧
    ∀ r ∈ opcodeRows, r.selects 0x1104 = false := by
  refine ⟨rfl, rfl, rfl, by decide⟩

/-- `DHT_ACQUIRE` just accepted, a further command presented and held. -/
def started : State :=
  { base with
    busy := true, dhtState := .startLow, dhtOe := true, dhtOut := false, limit := 200
    env := { base.env with host := [.command 0x0300 0 0] } }

theorem witness_BusyPortAcceptsNothing :
    rstNow started.env = false ∧ started.busy = true ∧ step started = .next (letTickPass started) :=
  ⟨rfl, rfl, rfl⟩
theorem witness_IdleHostLetsOneTickPass :
    (rstNow base.env = false ∧ base.busy = false ∧ base.env.host = [] ∧ base.cnt < base.limit) ∧
    (counting 255 255 0 0).env.host = [] ∧ ¬(counting 255 255 0 0).cnt < (counting 255 255 0 0).limit ∧
    ∃ rest, ({ base.env with host := [.idle, .command 0 0 0] } : Env).host = .idle :: rest := by
  refine ⟨by decide, rfl, by decide, _, rfl⟩
theorem witness_ResetTakesEveryRegister : rstNow ({ base.env with rstWave := [true] } : Env) = true := rfl

/-- `base` with a sensor line and a bound of 20. -/
def lineOf (cnt : Nat) (wave : List Bool) : State :=
  { base with cnt := cnt, limit := 20, env := { base.env with dhtWave := wave } }

theorem witness_noReset (cnt : Nat) (wave : List Bool) : noReset (lineOf cnt wave).env := fun _ => rfl
theorem witness_EtMeasureClosedForm_accepted (cnt : Nat) (wave : List Bool) :
    (lineOf cnt wave).dhtState.resting = true ∧ (lineOf cnt wave).irState.resting = true ∧
    noReset (lineOf cnt wave).env ∧
    ∃ t, exec (.etMeasure true .sensor) (lineOf cnt wave) = .next t := ⟨rfl, rfl, fun _ => rfl, _, rfl⟩
theorem witness_EtMeasureClosedForm_expired : (lineOf 20 []).limit ≤ (lineOf 20 []).cnt := by decide
/-- A run of 0 ticks, and the longest run that ends before the bound: 7 ticks from a count of 12. -/
theorem witness_EtMeasureClosedForm_ends :
    (isRun (lineOf 12 [false]).env .sensor true 0 ∧ (lineOf 12 [false]).cnt < 20) ∧
    isRun (lineOf 12 (List.replicate 7 true ++ [false])).env .sensor true 7 ∧ 7 < 20 - 12 := by
  refine ⟨⟨⟨by simp [holdsFor], by decide⟩, by decide⟩, ⟨?_, by decide⟩, by decide⟩
  simp only [holdsFor]
  decide
/-- The tie: a line that holds the level for exactly the 8 ticks left. -/
theorem witness_EtMeasureClosedForm_tie :
    (lineOf 12 (List.replicate 8 true ++ [false])).cnt < (lineOf 12 []).limit ∧
    holdsFor (lineOf 12 (List.replicate 8 true ++ [false])).env .sensor true (20 - 12) := by
  simp only [holdsFor]
  decide
theorem witness_EtMeasureAlwaysReturns :
    base.dhtState.resting = true ∧ base.irState.resting = true ∧ noReset base.env ∧
    ∃ t, exec (.etMeasure false .receiver) base = .next t := ⟨rfl, rfl, fun _ => rfl, _, rfl⟩
theorem witness_ClassifyCornerCases :
    (0 : Nat) < 2 ^ Config.cfgT.w ∧ 255 < 2 ^ Config.cfgT.w ∧ ¬255 < 2 ^ Config.cfgT.w - 1 ∧
    254 < 2 ^ Config.cfgT.w - 1 := by decide

theorem witness_FaClearBeginsAFrame :
    (1 ≤ 1 ∧ 1 ≤ 40) ∧ (1 ≤ 40 ∧ 40 ≤ 40) ∧ (0 = 0 ∨ 40 < 0) ∧ (41 = 0 ∨ 40 < 41) := by decide
theorem witness_FaPushAppendsOneBit :
    ((framed 40 (List.replicate 39 true)).frameWr < (framed 40 (List.replicate 39 true)).frameLen ∧
      (framed 40 (List.replicate 39 true)).frameLen ≤ 40) ∧ base.frameLen ≤ base.frameWr ∧
    (framed 8 bitsA5).frameLen ≤ (framed 8 bitsA5).frameWr := by decide
/-- The first and the last window of a frame of 9, and the three ways to be refused. -/
theorem witness_FaPackReadsOneWindow :
    (1 ≤ (framed 9 (true :: bitsA5)).frameLen ∧
      (framed 9 (true :: bitsA5)).frameWr = (framed 9 (true :: bitsA5)).frameLen ∧ 1 + 7 ≤ 9 - 1 ∧
      ∀ i : Fin 8, (framed 9 (true :: bitsA5)).frame.readBit (1 + i.val) = .ok (bitsA5.getD i.val false)) ∧
    (∀ i : Fin 8, (framed 9 (true :: bitsA5)).frame.readBit (0 + i.val) =
      .ok ((true :: bitsA5).getD i.val false)) ∧
    base.frameLen = 0 ∧ (framed 9 bitsA5).frameWr ≠ (framed 9 bitsA5).frameLen ∧
    (framed 9 (true :: bitsA5)).frameLen - 1 < 2 + 7 := by
  refine ⟨⟨by decide, by decide, by decide, ?_⟩, ?_, by decide, by decide, by decide⟩ <;>
    intro i <;> fin_cases i <;> rfl
/-- A window of one position, and the longest one at the end of the frame space. -/
theorem witness_MemReadSumsItsPositions :
    (1 ≤ 1 ∧ 1 ≤ 8 ∧ 39 + 1 ≤ 40 ∧ (spaceOf bitsA5).readBit (7 + 0) = .ok true) ∧
    (1 ≤ 8 ∧ 8 ≤ 8 ∧ 32 + 8 ≤ 40) ∧ ∀ i < 8, (spaceOf bitsA5).readBit (0 + i) = .ok (bitsA5.getD i false) := by
  refine ⟨⟨by decide, by decide, by decide, rfl⟩, by decide, fun i hi => ?_⟩
  interval_cases i <;> rfl
/-- A frame of 40 ones: every position of every window reads. -/
theorem witness_windows (p : Nat) (hp : p < 40) :
    (spaceOf (List.replicate 40 true)).readBit p = .ok true := by
  interval_cases p <;> rfl
theorem witness_SensorWindowsSkipPadding (p : Nat) (hp : p < 8 ∨ 16 ≤ p ∧ p < 24 ∨ 32 ≤ p ∧ p < 40) :
    (spaceOf (List.replicate 40 true)).readBit p = .ok true := witness_windows p (by omega)
theorem witness_RemoteWindowsFollowOffset (p : Nat) (hp : p < 9 ∨ 16 ≤ p ∧ p < 24) :
    (spaceOf (List.replicate 40 true)).readBit p = .ok true := witness_windows p (by omega)
theorem witness_PackWeighsItsBits (i : Fin 8) :
    (framed 8 bitsA5).frame.readBit (0 + i.val) = .ok (bitsA5.getD i.val false) := by
  fin_cases i <;> rfl
theorem witness_PushedFramePacksItsBits :
    (1 ≤ [true].length ∧ [true].length ≤ 40) ∧
    (1 ≤ (List.replicate 40 true).length ∧ (List.replicate 40 true).length ≤ 40) ∧
    32 + 8 ≤ (List.replicate 40 true).length ∧ 0 + 8 ≤ bitsA5.length := by decide

theorem witness_DhtStartWindowsDriveTheLine :
    noReset base.env ∧ (∃ t, exec .dhtAcquire base = .next t) ∧ 200 ≤ base.cfg.tStartLow ∧
    30 ≤ base.cfg.tStartHigh := ⟨fun _ => rfl, ⟨_, rfl⟩, by decide, by decide⟩

/-- The hypotheses of the polls of the sensor protocol. -/
def sensorPolls (s : State) (d : DhtState) (level : Bool) : Prop :=
  rstNow s.env = false ∧ s.busy = true ∧ s.dhtState = d ∧ s.cnt < s.limit ∧ lineNow s.env .sensor = level

theorem witness_DhtPhaseFollowsTheLine :
    sensorPolls (sensorAt false (.await 0) 0 255) (.await 0) (decide ((0 : Fin 4).val = 1 ∨ (0 : Fin 4).val = 3)) ∧
    sensorPolls (sensorAt true (.await 0) 254 255) (.await 0) true ∧
    sensorPolls (sensorAt true (.await 3) 0 255) (.await 3) (decide ((3 : Fin 4).val = 1 ∨ (3 : Fin 4).val = 3)) ∧
    sensorPolls (sensorAt false (.await 3) 254 255) (.await 3) false := by
  refine ⟨⟨rfl, rfl, rfl, by decide, rfl⟩, ⟨rfl, rfl, rfl, by decide, rfl⟩, ⟨rfl, rfl, rfl, by decide, rfl⟩,
    ⟨rfl, rfl, rfl, by decide, rfl⟩⟩
theorem witness_DhtCellStoresItsBit :
    sensorPolls (sensorAt false (.sampleLow 39) 0 255) (.sampleLow 39) false ∧
    sensorPolls (sensorAt true (.sampleHigh 39) 254 255) (.sampleHigh 39) true ∧
    sensorPolls (sensorAt true (.sampleLow 0) 254 255) (.sampleLow 0) true ∧
    sensorPolls (sensorAt false (.sampleHigh 0) 40 255) (.sampleHigh 0) false ∧
    sensorPolls (sensorAt false (.sampleHigh 38) 41 255) (.sampleHigh 38) false ∧
    sensorPolls (sensorAt false (.sampleHigh 39) 254 255) (.sampleHigh 39) false := by
  refine ⟨⟨rfl, rfl, rfl, by decide, rfl⟩, ⟨rfl, rfl, rfl, by decide, rfl⟩,
    ⟨rfl, rfl, rfl, by decide, rfl⟩, ⟨rfl, rfl, rfl, by decide, rfl⟩, ⟨rfl, rfl, rfl, by decide, rfl⟩,
    ⟨rfl, rfl, rfl, by decide, rfl⟩⟩
/-- A sum that carries out of 8 bits, and a wrong one. -/
theorem witness_DhtValidationChecksTheSum :
    (rstNow (sensorFrame [0xFF, 0, 0x02, 0, 0x01]).env = false ∧
      (sensorFrame [0xFF, 0, 0x02, 0, 0x01]).busy = true ∧
      (sensorFrame [0xFF, 0, 0x02, 0, 0x01]).dhtState = .validating ∧
      (sensorFrame [0xFF, 0, 0x02, 0, 0x01]).frame.pack8 0 = .ok 0xFF ∧
      (sensorFrame [0xFF, 0, 0x02, 0, 0x01]).frame.pack8 16 = .ok 0x02 ∧
      (sensorFrame [0xFF, 0, 0x02, 0, 0x01]).frame.pack8 32 = .ok 0x01 ∧
      ((0x02 : Byte).toNat + (0xFF : Byte).toNat) % 256 = (0x01 : Byte).toNat) ∧
    (sensorFrame [0x40, 0, 0x19, 0, 0x5A]).frame.pack8 32 = .ok 0x5A ∧
    ((0x19 : Byte).toNat + (0x40 : Byte).toNat) % 256 ≠ (0x5A : Byte).toNat := by
  refine ⟨⟨rfl, rfl, rfl, rfl, rfl, rfl, by decide⟩, rfl, by decide⟩

/-- An instance with `MAX_TICKS = 3`, so that whole frames are short. -/
def tiny : Config :=
  { w := 2, threshDht := 1, threshIr := 1, tStartLow := 2, tStartHigh := 1, tickHz := 0
    w_pos := by decide, threshDht_lt := by decide, threshIr_lt := by decide
    tStartLow_le := by decide, tStartHigh_lt := by decide, tStartHigh_pos := by decide }

/-- The reset state of `tiny` with a sensor line. -/
def tinySensor (wave : List Bool) : State :=
  { State.resetOf tiny with env := { Env.initial with dhtWave := wave } }

/-- 40 cells of the bit 0. -/
def zeroCells : List (Nat × Nat) := List.replicate 40 (1, 1)

/-- 39 cells of the bit 0 and one of the bit 1, each span at its longest. -/
def badCells : List (Nat × Nat) := List.replicate 39 (2, 1) ++ [(2, 2)]

/-- A handshake and the cells, after three ticks of start windows; phase 0 lasts `h0`. -/
def sensorTrain (h0 : Nat) (cells : List (Nat × Nat)) : List Bool :=
  [true, false, true] ++ (trainLevels ((h0, 1) :: (2, 2) :: cells) ++ false :: [])

/-- Both outcomes, with phase 0 of no length and at its longest. -/
theorem witness_DhtAcquireDecodesPulseTrain :
    (noReset (tinySensor (sensorTrain 0 zeroCells)).env ∧
      [true, false, true].length = tiny.tStartLow + tiny.tStartHigh ∧ 0 < tiny.maxTicks ∧ 2 < tiny.maxTicks ∧
      zeroCells.length = 40 ∧ (∀ c ∈ zeroCells, 1 ≤ c.1 ∧ c.1 < 3 ∧ 1 ≤ c.2 ∧ c.2 < 3) ∧
      (∃ t, exec .dhtAcquire (tinySensor (sensorTrain 0 zeroCells)) = .next t) ∧
      windowByte (trainBits 1 zeroCells) 16 + windowByte (trainBits 1 zeroCells) 0 =
        windowByte (trainBits 1 zeroCells) 32) ∧
    noReset (tinySensor (sensorTrain 2 badCells)).env ∧ badCells.length = 40 ∧
    (∀ c ∈ badCells, 1 ≤ c.1 ∧ c.1 < 3 ∧ 1 ≤ c.2 ∧ c.2 < 3) ∧
    windowByte (trainBits 1 badCells) 16 + windowByte (trainBits 1 badCells) 0 ≠
      windowByte (trainBits 1 badCells) 32 := by
  refine ⟨⟨fun _ => rfl, rfl, by decide, by decide, rfl, by decide, ⟨_, rfl⟩, by decide⟩, fun _ => rfl, rfl,
    by decide, by decide⟩

theorem witness_SensorBytesChangeOnlyOnOk :
    rstNow (sensorFrame [0xF0, 0xAA, 0x20, 0x55, 0x10]).env = false ∧
    ∃ t, step (sensorFrame [0xF0, 0xAA, 0x20, 0x55, 0x10]) = .next t ∧
      ¬(t.dhtHum = base.dhtHum ∧ t.dhtTemp = base.dhtTemp ∧ t.dhtPar = base.dhtPar) := by
  refine ⟨rfl, _, rfl, by decide⟩
theorem witness_SensorLeavesRemoteUntouched :
    rstNow started.env = false ∧ started.busy = true ∧ started.dhtState.resting = false ∧
    step started = .next (letTickPass started) := ⟨rfl, rfl, rfl, rfl⟩

/-- `started` meets the invariant. -/
theorem started_inv : started.Inv where
  cnt_lt := by decide
  limit_lt := by decide
  edge_lt := by decide
  len_le := by decide
  wr_le := by decide
  frame_wf := rfl
  unread_offset := by decide
  rsp_lt := by decide
  rsp_quiet := fun _ => rfl
  rsp_ill := fun h => nomatch h
  busy_quiet := fun _ => rfl
  dht_busy := fun _ => ⟨rfl, rfl⟩
  ir_busy := fun h => nomatch h
  dht_phase := ⟨rfl, rfl, rfl, by decide⟩
  ir_phase := trivial

/-- `Validating` of the remote protocol, with an unread command, meets the invariant. -/
theorem remoteFrame_inv : (remoteFrame [0x10, 0xEF, 0x58, 0xA7] true true).Inv where
  cnt_lt := by decide
  limit_lt := by decide
  edge_lt := by decide
  len_le := by decide
  wr_le := by decide
  frame_wf := by decide
  unread_offset := by decide
  rsp_lt := by decide
  rsp_quiet := fun _ => rfl
  rsp_ill := fun h => nomatch h
  busy_quiet := fun _ => rfl
  dht_busy := fun h => nomatch h
  ir_busy := fun _ => ⟨rfl, rfl⟩
  dht_phase := ⟨rfl, rfl⟩
  ir_phase := ⟨rfl, rfl, rfl, by decide⟩

/-- `ET_MEASURE` running on the sensor line, the count at its boundary below full scale. -/
def measuringState : State := measuringAt true true 254 255

/-- `measuringState` meets the invariant. -/
theorem measuring_inv : measuringState.Inv where
  cnt_lt := by decide
  limit_lt := by decide
  edge_lt := by decide
  len_le := by decide
  wr_le := by decide
  frame_wf := rfl
  unread_offset := by decide
  rsp_lt := by decide
  rsp_quiet := fun _ => rfl
  rsp_ill := fun h => nomatch h
  busy_quiet := fun _ => rfl
  dht_busy := fun h => nomatch h
  ir_busy := fun h => nomatch h
  dht_phase := ⟨rfl, rfl⟩
  ir_phase := trivial

/-- A frame of 8 with 7 bits pushed and a further push presented. -/
def pushing : State :=
  { framed 8 [true, false, true, false, false, true, false] with
    env := { base.env with host := [.command 0x3101 0 0] } }

/-- `pushing` meets the invariant. -/
theorem pushing_inv : pushing.Inv where
  cnt_lt := by decide
  limit_lt := by decide
  edge_lt := by decide
  len_le := by decide
  wr_le := by decide
  frame_wf := by decide
  unread_offset := by decide
  rsp_lt := by decide
  rsp_quiet := fun _ => rfl
  rsp_ill := fun h => nomatch h
  busy_quiet := fun h => nomatch h
  dht_busy := fun h => nomatch h
  ir_busy := fun h => nomatch h
  dht_phase := ⟨rfl, rfl⟩
  ir_phase := trivial

/-- A push, and a step that writes no position. -/
theorem witness_FrameGrowsByAppending :
    (pushing.Inv ∧ rstNow pushing.env = false ∧ ∃ t, step pushing = .next t ∧ t.frameWr = 8) ∧
    started.Inv ∧ rstNow started.env = false ∧ step started = .next (letTickPass started) :=
  ⟨⟨pushing_inv, rfl, _, rfl, rfl⟩, started_inv, rfl, rfl⟩

/-- A tick passing while the line is driven, and the end of the window, at which none passes. -/
theorem witness_DrivenLineIsNotSampled :
    started.Inv ∧ started.dhtOe = true ∧ step started = .next (letTickPass started) ∧
    ∃ t, step { started with cnt := 200 } = .next t ∧ t.env.clock = started.env.clock :=
  ⟨started_inv, rfl, rfl, _, rfl, rfl⟩

theorem witness_IrWaitNeedsARecordedStart :
    ({ base with irState := .startDetected } : State).irState = .startDetected ∧
    base.irState ≠ .startDetected := by decide

/-- The hypotheses of the polls of the remote protocol. -/
def receiverPolls (s : State) (i : IrState) (level : Bool) : Prop :=
  rstNow s.env = false ∧ s.busy = true ∧ s.dhtState.resting = true ∧ s.cnt < s.limit ∧ s.irState = i ∧
    lineNow s.env .receiver = level

theorem witness_IrIntervalStoresItsBit :
    receiverPolls (receiverAt false (.sampleLow 31) 0 255) (.sampleLow 31) false ∧
    receiverPolls (receiverAt true (.sampleHigh 31) 254 255) (.sampleHigh 31) true ∧
    receiverPolls (receiverAt true (.sampleLow 31) 254 255) (.sampleLow 31) true ∧
    receiverPolls (receiverAt false (.sampleHigh 0) 100 255) (.sampleHigh 0) false ∧
    receiverPolls (receiverAt false (.sampleHigh 30) 101 255) (.sampleHigh 30) false ∧
    receiverPolls (receiverAt false (.sampleHigh 31) 254 255) (.sampleHigh 31) false := by
  refine ⟨⟨rfl, rfl, rfl, by decide, rfl, rfl⟩, ⟨rfl, rfl, rfl, by decide, rfl, rfl⟩,
    ⟨rfl, rfl, rfl, by decide, rfl, rfl⟩, ⟨rfl, rfl, rfl, by decide, rfl, rfl⟩,
    ⟨rfl, rfl, rfl, by decide, rfl, rfl⟩, ⟨rfl, rfl, rfl, by decide, rfl, rfl⟩⟩

/-- The hypotheses of `IrValidationOrdersItsChecks` on a frame of the bytes given. -/
def validates (bytes : List Byte) (offset unread : Bool) (addr cmd : Byte) : Prop :=
  rstNow (remoteFrame bytes offset unread).env = false ∧ (remoteFrame bytes offset unread).busy = true ∧
  (remoteFrame bytes offset unread).dhtState.resting = true ∧
  (remoteFrame bytes offset unread).irState = .validating ∧
  (frameOf bytes).pack8 (if offset then 1 else 0) = .ok addr ∧
  (if offset then ∃ v, (frameOf bytes).read 17 7 = .ok v ∧ cmd.toNat = 2 * v
    else (frameOf bytes).pack8 16 = .ok cmd)

/-- V-IR-8, V-IR-3 and V-IR-1: one frame for each outcome. -/
theorem witness_IrValidationOrdersItsChecks :
    validates [0xFF, 0x80, 0x12, 0x34] true true 0xFF 0x24 ∧
    validates [0x10, 0xEF, 0x58, 0xA7] true true 0x21 0xB0 ∧
    validates [0x20, 0xDF, 0xA8, 0xD7] false false 0x20 0xA8 :=
  ⟨⟨rfl, rfl, rfl, rfl, rfl, 0x12, rfl, rfl⟩, ⟨rfl, rfl, rfl, rfl, rfl, 0x58, rfl, rfl⟩,
    ⟨rfl, rfl, rfl, rfl, rfl, rfl⟩⟩

/-- The reset state of `tiny` with a recorded start of frame and a receiver line. -/
def tinyReceiver (offset unread : Bool) (wave : List Bool) : State :=
  { State.resetOf tiny with
    irState := .startDetected, irOffset := offset, irUnread := unread
    env := { Env.initial with irWave := wave } }

/-- 32 intervals of the bit 0; the first mark has no length. -/
def zeroIntervals : List (Nat × Nat) := (0, 1) :: List.replicate 31 (1, 1)

/-- 32 intervals of the bit 1, each span at its longest. -/
def oneIntervals : List (Nat × Nat) := List.replicate 32 (2, 2)

/-- The hypotheses on a train of the remote protocol under `tiny`. -/
def remoteTrain (cells : List (Nat × Nat)) (offset unread : Bool) : Prop :=
  noReset (tinyReceiver offset unread (trainLevels cells ++ false :: [])).env ∧
  (tinyReceiver offset unread (trainLevels cells ++ false :: [])).dhtState.resting = true ∧
  (tinyReceiver offset unread (trainLevels cells ++ false :: [])).irState = .startDetected ∧
  cells.length = 32 ∧ (∀ c ∈ cells, c.1 < tiny.maxTicks ∧ 1 ≤ c.2 ∧ c.2 < tiny.maxTicks) ∧
  (∀ c ∈ cells.tail, 1 ≤ c.1) ∧
  ∃ t, exec .irWait (tinyReceiver offset unread (trainLevels cells ++ false :: [])) = .next t

/-- An address of all ones; an unread command; a good frame. -/
theorem witness_IrWaitDecodesPulseTrain :
    (remoteTrain oneIntervals true true ∧ windowByte (trainBits tiny.threshIr oneIntervals) 1 = 0xFF) ∧
    (remoteTrain zeroIntervals true true ∧ windowByte (trainBits tiny.threshIr zeroIntervals) 1 ≠ 0xFF) ∧
    remoteTrain zeroIntervals false false ∧ windowByte (trainBits tiny.threshIr zeroIntervals) 0 ≠ 0xFF := by
  refine ⟨⟨⟨fun _ => rfl, rfl, rfl, rfl, by decide, by decide, _, rfl⟩, by decide⟩,
    ⟨⟨fun _ => rfl, rfl, rfl, rfl, by decide, by decide, _, rfl⟩, by decide⟩,
    ⟨fun _ => rfl, rfl, rfl, rfl, by decide, by decide, _, rfl⟩, by decide⟩

theorem witness_OnlyResetClearsOffset :
    ∃ t, step { base with irOffset := true, env := { base.env with rstWave := [true] } } = .next t ∧
      t.irOffset = false := ⟨_, rfl, rfl⟩
theorem witness_RemoteBytesChangeOnlyOnOk :
    rstNow (remoteFrame [0x20, 0xDF, 0xA8, 0xD7] false false).env = false ∧
    ∃ t, step (remoteFrame [0x20, 0xDF, 0xA8, 0xD7] false false) = .next t ∧
      ¬(t.irAddr = 0 ∧ t.irCmd = 0 ∧ t.irOffset = false) ∧ t.irUnread = true := by
  refine ⟨rfl, _, rfl, by decide, rfl⟩

/-- The hypotheses of `TimeoutRaisesFailure`. -/
def timesOut (s : State) : Prop := rstNow s.env = false ∧ s.busy = true ∧ s.limit ≤ s.cnt

theorem witness_TimeoutRaisesFailure :
    (timesOut (sensorAt true (.await 1) 255 255) ∧ ∃ p, (sensorAt true (.await 1) 255 255).dhtState = .await p) ∧
    timesOut (sensorAt false (.sampleLow 39) 255 255) ∧ timesOut (sensorAt false (.sampleHigh 0) 255 255) ∧
    (timesOut (receiverAt false (.sampleLow 0) 255 255) ∧
      (receiverAt false (.sampleLow 0) 255 255).dhtState.resting = true) ∧
    timesOut (receiverAt true (.sampleHigh 10) 255 255) :=
  ⟨⟨⟨rfl, rfl, by decide⟩, 1, rfl⟩, ⟨rfl, rfl, by decide⟩, ⟨rfl, rfl, by decide⟩,
    ⟨⟨rfl, rfl, by decide⟩, rfl⟩, ⟨rfl, rfl, by decide⟩⟩
/-- Each error status is presented by some step, `TimeoutError` and `ChecksumError` by either protocol. -/
theorem witness_ErrorStatusHasItsCause :
    (∃ t, step (receiverAt true (.sampleHigh 31) 255 255) = .next t ∧ t.rsp.status = .timeoutError) ∧
    (∃ t, step (remoteFrame [0xFF, 0x00, 0x12, 0x34] false false) = .next t ∧ t.rsp.status = .checksumError) ∧
    (∃ t, step (sensorAt true (.await 1) 255 255) = .next t ∧ t.rsp.status = .timeoutError) ∧
    (∃ t, step (sensorFrame [0x40, 0, 0x19, 0, 0x5A]) = .next t ∧ t.rsp.status = .checksumError) ∧
    ∃ t, step (remoteFrame [0x10, 0xEF, 0x58, 0xA7] true true) = .next t ∧ t.rsp.status = .overwriteError :=
  ⟨⟨_, rfl, rfl⟩, ⟨_, rfl, rfl⟩, ⟨_, rfl, rfl⟩, ⟨_, rfl, rfl⟩, _, rfl, rfl⟩

theorem witness_StepKeepsInvariant :
    (started.Inv ∧ step started = .next (letTickPass started)) ∧
    (remoteFrame [0x10, 0xEF, 0x58, 0xA7] true true).Inv ∧
    ∃ t, step (remoteFrame [0x10, 0xEF, 0x58, 0xA7] true true) = .next t :=
  ⟨⟨started_inv, rfl⟩, remoteFrame_inv, _, rfl⟩
theorem witness_InvariantStepNeverStops :
    started.Inv ∧ (remoteFrame [0x10, 0xEF, 0x58, 0xA7] true true).Inv := ⟨started_inv, remoteFrame_inv⟩
theorem witness_BlockingOperationsReturn :
    (started.Inv ∧ started.busy = true ∧ noReset started.env) ∧
    (remoteFrame [0x10, 0xEF, 0x58, 0xA7] true true).Inv ∧
    (remoteFrame [0x10, 0xEF, 0x58, 0xA7] true true).busy = true ∧
    noReset (remoteFrame [0x10, 0xEF, 0x58, 0xA7] true true).env ∧
    (remoteFrame [0x10, 0xEF, 0x58, 0xA7] true true).irState.resting = false ∧
    measuringState.Inv ∧ noReset measuringState.env ∧ measuring measuringState = true :=
  ⟨⟨started_inv, rfl, fun _ => rfl⟩, remoteFrame_inv, rfl, fun _ => rfl, rfl, measuring_inv, fun _ => rfl, rfl⟩
theorem witness_ParametersNeverChange : step started = .next (letTickPass started) := rfl
theorem witness_ResponseOncePerCommand :
    (rstNow started.env = false ∧ step started = .next (letTickPass started) ∧ started.busy = true) ∧
    (rstNow (presented 0x0300).env = false ∧ (presented 0x0300).busy = false ∧
      (∃ w a b rest, (presented 0x0300).env.host = .command w a b :: rest) ∧
      ∃ t, step (presented 0x0300) = .next t) ∧
    rstNow base.env = false ∧ base.busy = false ∧ base.env.host = [] ∧ ∃ t, step base = .next t :=
  ⟨⟨rfl, rfl, rfl⟩, ⟨rfl, rfl, ⟨_, _, _, _, rfl⟩, _, rfl⟩, rfl, rfl, rfl, _, rfl⟩
theorem witness_AcceptanceTakesNoTick :
    (∃ t, exec (.etMeasure true .sensor) base = .next t) ∧ (∃ t, exec .dhtAcquire base = .next t) ∧
    ∃ t, exec .cntTicks base = .next t := ⟨⟨_, rfl⟩, ⟨_, rfl⟩, _, rfl⟩

end Sys2Proof.Tests
end

section
/-! PROOFS. The scope of the block (00_scope.md R8, R11, R13): what an accepted operation can do, said once; the
parameters; ticks of an idle port; and the sensor line while the block drives it. -/

namespace Sys2Proof.Proofs

open Sys2Proof Sys2Proof.Machine Sys2Proof.Laws

/-! ### What an accepted operation can do -/

/-- `Accepted s i t`: the operation `i`, accepted in `s`, gives `t`. Each constructor names the operation, its guard
and the state it gives; an operation the rules refuse under a guard has a second constructor for the refusal. -/
inductive Accepted (s : State) : Instr → State → Prop where
  | cntReset : Accepted s .cntReset (respond ackResponse (zeroCount s))
  | cntArm : Accepted s .cntArm (respond ackResponse (setLimit (operandA s) s))
  | cntExpired : Accepted s .cntExpired (respond (bitResponse (expired s)) s)
  | cntTicks : Accepted s .cntTicks (respond (dataResponse s.cnt) s)
  | etArm : Accepted s .etArm (respond ackResponse (armFull s))
  | etMeasure (level : Bool) (sel : Line) :
      Accepted s (.etMeasure level sel) { noResponse s with busy := true, measLevel := level, measSel := sel }
  | etCount : Accepted s .etCount (respond (dataResponse s.cnt) s)
  | pcClassify : Accepted s .pcClassify (respond (bitResponse (classify (operandA s) (operandB s))) s)
  | faClear (len : Nat) (h : 1 ≤ len ∧ len ≤ 40) :
      Accepted s (.faClear len) (respond ackResponse (startFrame len s))
  | faClearRefused (len : Nat) (h : len = 0 ∨ 40 < len) : Accepted s (.faClear len) (refuse s)
  | faPush (bit : Bool) (h : s.frameWr < s.frameLen) (hp : s.frameWr < 40) :
      Accepted s (.faPush bit) (respond ackResponse (storeBit s.frameWr bit s))
  | faPushRefused (bit : Bool) (h : s.frameLen ≤ s.frameWr) : Accepted s (.faPush bit) (refuse s)
  | faPack (start : Nat) (b : Byte) (h : packable start s = true) (hb : s.frame.pack8 start = .ok b) :
      Accepted s (.faPack start) (respond (dataResponse b.toNat) s)
  | faPackRefused (start : Nat) (h : packable start s = false) : Accepted s (.faPack start) (refuse s)
  | dhtAcquire : Accepted s .dhtAcquire (startCount s.cfg.tStartLow
      { noResponse s with busy := true, dhtState := .startLow, dhtOe := true, dhtOut := false })
  | dhtReadTemp : Accepted s .dhtReadTemp (respond (dataResponse s.dhtTemp.toNat) s)
  | dhtReadHum : Accepted s .dhtReadHum (respond (dataResponse s.dhtHum.toNat) s)
  | irAvail : Accepted s .irAvail (respond (bitResponse (available s)) s)
  | irWait (h : available s = true) :
      Accepted s .irWait (armFull (startFrame 32 { noResponse s with busy := true, irState := .sampleLow 0 }))
  | irWaitRefused (h : available s = false) : Accepted s .irWait (refuse s)
  | irReadCmd : Accepted s .irReadCmd (respond (dataResponse s.irCmd.toNat) { s with irUnread := false })
  | irReadAddr : Accepted s .irReadAddr (respond (dataResponse s.irAddr.toNat) { s with irUnread := false })
  | irEdge :
      Accepted s .irEdge (respond ackResponse { s with irState := .startDetected, irEdgeTicks := s.cnt })
  | irClrEdge (h : available s = true) :
      Accepted s .irClrEdge (respond ackResponse { s with irState := .idle })
  | irClrEdgeIdle (h : available s = false) : Accepted s .irClrEdge (respond ackResponse s)

theorem execFaClear_accepted {s t : State} {len : Nat} (h : execFaClear len s = .next t) :
    Accepted s (.faClear len) t := by
  rw [execFaClear, Host.Outcome.next.injEq] at h
  subst h
  split_ifs with hlen
  · exact .faClearRefused len hlen
  · exact .faClear len (by omega)

theorem execFaPush_accepted {s t : State} {bit : Bool} (h : execFaPush bit s = .next t) :
    Accepted s (.faPush bit) t := by
  unfold execFaPush at h
  split_ifs at h with hfull hp <;> cases h
  · exact .faPushRefused bit hfull
  · exact .faPush bit (by omega) hp

theorem execFaPack_accepted {s t : State} {start : Nat} (h : execFaPack start s = .next t) :
    Accepted s (.faPack start) t := by
  unfold execFaPack at h
  split_ifs at h with hp
  · split at h
    next b hb => cases h; exact .faPack start b hp hb
    next => cases h
  · cases h
    exact .faPackRefused start (by simpa using hp)

theorem execIrWait_accepted {s t : State} (h : execIrWait s = .next t) : Accepted s .irWait t := by
  rw [execIrWait, Host.Outcome.next.injEq] at h
  subst h
  split_ifs with ha
  · exact .irWait ha
  · exact .irWaitRefused (by simpa using ha)

theorem execIrClrEdge_accepted {s t : State} (h : execIrClrEdge s = .next t) : Accepted s .irClrEdge t := by
  rw [execIrClrEdge, Host.Outcome.next.injEq] at h
  subst h
  split_ifs with ha
  · exact .irClrEdge ha
  · exact .irClrEdgeIdle (by simpa using ha)

/-- What an accepted operation that answers a next state has done. -/
theorem exec_accepted {i : Instr} {s t : State} (h : exec i s = .next t) : Accepted s i t := by
  cases i with
  | cntReset => cases h; exact .cntReset
  | cntArm => cases h; exact .cntArm
  | cntExpired => cases h; exact .cntExpired
  | cntTicks => cases h; exact .cntTicks
  | etArm => cases h; exact .etArm
  | etMeasure level sel => cases h; exact .etMeasure level sel
  | etCount => cases h; exact .etCount
  | pcClassify => cases h; exact .pcClassify
  | faClear len => exact execFaClear_accepted h
  | faPush bit => exact execFaPush_accepted h
  | faPack start => exact execFaPack_accepted h
  | dhtAcquire => cases h; exact .dhtAcquire
  | dhtReadTemp => cases h; exact .dhtReadTemp
  | dhtReadHum => cases h; exact .dhtReadHum
  | irAvail => cases h; exact .irAvail
  | irWait => exact execIrWait_accepted h
  | irReadCmd => cases h; exact .irReadCmd
  | irReadAddr => cases h; exact .irReadAddr
  | irEdge => cases h; exact .irEdge
  | irClrEdge => exact execIrClrEdge_accepted h

theorem Accepted.cfg_eq {s t : State} {i : Instr} (h : Accepted s i t) : t.cfg = s.cfg := by
  cases h <;> rfl

theorem Accepted.env_eq {s t : State} {i : Instr} (h : Accepted s i t) : t.env = s.env := by
  cases h <;> rfl

/-- The operations that may close the port when they are accepted (30_encoding.md R62). -/
def closesPort (i : Instr) : Prop := (∃ level sel, i = .etMeasure level sel) ∨ i = .dhtAcquire ∨ i = .irWait

theorem Accepted.closesPort_or_busy_eq {s t : State} {i : Instr} (h : Accepted s i t) :
    closesPort i ∨ t.busy = s.busy := by
  cases h with
  | etMeasure level sel => exact .inl (.inl ⟨level, sel, rfl⟩)
  | dhtAcquire => exact .inl (.inr (.inl rfl))
  | irWait => exact .inl (.inr (.inr rfl))
  | _ => exact .inr rfl

/-- Settles O56: no accepted operation writes the environment, and only a blocking one writes `busy`. -/
theorem acceptanceTakesNoTick : Obligations.AcceptanceTakesNoTick := by
  intro i s t h
  have hacc := exec_accepted h
  exact ⟨hacc.env_eq, by simpa only [closesPort, or_assoc] using hacc.closesPort_or_busy_eq⟩

/-! ### The parameters -/

theorem dhtNextCell_cfg (n : Fin 40) (s : State) : (dhtNextCell n s).cfg = s.cfg := by
  unfold dhtNextCell
  split_ifs <;> rfl

theorem irNextInterval_cfg (n : Fin 32) (s : State) : (irNextInterval n s).cfg = s.cfg := by
  unfold irNextInterval
  split_ifs <;> rfl

theorem move_cfg {s t : State} (h : Move s t) : t.cfg = s.cfg := by
  cases h with
  | cellHighEnd n => exact dhtNextCell_cfg n _
  | spaceEnd n => exact irNextInterval_cfg n _
  | _ => rfl

/-- Settles O54, by the five kinds of step. -/
theorem parametersNeverChange : Obligations.ParametersNeverChange := by
  intro s t h
  rcases step_cases s t h with ⟨-, rfl⟩ | ⟨-, -, he⟩ | ⟨-, -, rest, rfl, -⟩ |
    ⟨-, -, w, a, b, rest, i, -, -, he⟩ | ⟨-, -, w, a, b, rest, e, -, -, rfl⟩
  · rfl
  · exact move_cfg (engineStep_move s t he)
  · rfl
  · exact (exec_accepted he).cfg_eq
  · rfl

/-! ### A tick of the idle port -/

theorem envAfter_one (e : Env) : envAfter 1 e = e.advance := by
  simp only [envAfter, Env.advance, List.drop_one]

theorem portStep_nothing_presented {s : State} {rest : List HostEvent}
    (h : s.env.host = .idle :: rest ∨ (s.env.host = [] ∧ rest = [])) :
    portStep s = .next (idleTick rest s) := by
  rcases h with hidle | ⟨hnil, rfl⟩
  · simp only [portStep, hidle]
  · simp only [portStep, hnil]

/-- Settles O10: the step is `idleTick`, whose tick is `envAfter 1`. -/
theorem idleHostLetsOneTickPass : Obligations.IdleHostLetsOneTickPass := by
  intro s rest hrst hbusy hhost
  rw [step_port s hrst hbusy, portStep_nothing_presented hhost, envAfter_one]
  rfl

/-! ### The driven sensor line -/

/-- `s` with other levels on `dht_in` from the current tick on. -/
def withSensorWave (w : List Bool) (s : State) : State := { s with env := { s.env with dhtWave := w } }

/-- What is left in `t` of the levels `w` that `dht_in` had in `s`: all of them, or all but the first when a tick has
passed. -/
def remainingWave (w : List Bool) (s t : State) : List Bool := if t.env.clock = s.env.clock then w else w.tail

theorem eq_withRemainingWave_of_no_tick {w : List Bool} {s t u : State} (hclock : t.env.clock = s.env.clock)
    (hu : u = withSensorWave w t) : u = withSensorWave (remainingWave w s t) t := by
  rw [remainingWave, if_pos hclock, hu]

theorem eq_withRemainingWave_of_tick {w : List Bool} {s t u : State}
    (hclock : t.env.clock = s.env.clock + 1) (hu : u = withSensorWave w.tail t) :
    u = withSensorWave (remainingWave w s t) t := by
  rw [remainingWave, if_neg (by omega), hu]

theorem applyReset_withSensorWave (w : List Bool) (s : State) :
    applyReset (withSensorWave w s) = withSensorWave (remainingWave w s (applyReset s)) (applyReset s) :=
  eq_withRemainingWave_of_tick rfl rfl

theorem letTickPass_withSensorWave (w : List Bool) (s : State) :
    letTickPass (withSensorWave w s) = withSensorWave (remainingWave w s (letTickPass s)) (letTickPass s) :=
  eq_withRemainingWave_of_tick rfl rfl

/-- The first window of the start signal reads the counter and not the line (43_dht11.md R111). -/
theorem dhtStartLow_withSensorWave (w : List Bool) (s : State) :
    dhtStartLow (withSensorWave w s) = withSensorWave (remainingWave w s (dhtStartLow s)) (dhtStartLow s) := by
  have hexp : expired (withSensorWave w s) = expired s := rfl
  unfold dhtStartLow
  rw [hexp]
  split_ifs
  · exact eq_withRemainingWave_of_no_tick rfl rfl
  · exact letTickPass_withSensorWave w s

/-- The second window of the start signal reads the counter and not the line (43_dht11.md R111, R112). -/
theorem dhtStartHigh_withSensorWave (w : List Bool) (s : State) :
    dhtStartHigh (withSensorWave w s) = withSensorWave (remainingWave w s (dhtStartHigh s)) (dhtStartHigh s) := by
  have hexp : expired (withSensorWave w s) = expired s := rfl
  unfold dhtStartHigh
  rw [hexp]
  split_ifs
  · exact eq_withRemainingWave_of_no_tick rfl rfl
  · exact letTickPass_withSensorWave w s

/-- The line is driven in the two windows of the start signal only (10_state.md R23). -/
theorem start_window_of_dhtOe {s : State} (hinv : s.Inv) (hoe : s.dhtOe = true) :
    s.dhtState = .startLow ∨ s.dhtState = .startHigh := by
  have hphase := hinv.dht_phase
  cases hd : s.dhtState with
  | startLow => exact .inl rfl
  | startHigh => exact .inr rfl
  | _ => simp [dhtPhase, hd, sensing, hoe] at hphase

theorem step_startLow {s : State} (hrst : rstNow s.env = false) (hbusy : s.busy = true)
    (hd : s.dhtState = .startLow) : step s = .next (dhtStartLow s) := by
  simp only [step_engine s hrst hbusy, engineStep, hd]

theorem step_startHigh {s : State} (hrst : rstNow s.env = false) (hbusy : s.busy = true)
    (hd : s.dhtState = .startHigh) : step s = .next (dhtStartHigh s) := by
  simp only [step_engine s hrst hbusy, engineStep, hd]

/-- Settles O37: under the invariant the step is a reset or one of a window of the start signal, and none of the
three reads the line. -/
theorem drivenLineIsNotSampled : Obligations.DrivenLineIsNotSampled := by
  intro s t w hinv hoe hstep
  change step (withSensorWave w s) = .next (withSensorWave (remainingWave w s t) t)
  cases hrst : rstNow s.env with
  | true =>
    rw [step_reset s hrst] at hstep
    cases hstep
    rw [step_reset (withSensorWave w s) hrst, applyReset_withSensorWave]
  | false =>
    rcases start_window_of_dhtOe hinv hoe with hd | hd
    · obtain ⟨hbusy, -⟩ := hinv.dht_busy (by rw [hd]; rfl)
      rw [step_startLow hrst hbusy hd] at hstep
      cases hstep
      rw [step_startLow (s := withSensorWave w s) hrst hbusy hd, dhtStartLow_withSensorWave]
    · obtain ⟨hbusy, -⟩ := hinv.dht_busy (by rw [hd]; rfl)
      rw [step_startHigh hrst hbusy hd] at hstep
      cases hstep
      rw [step_startHigh (s := withSensorWave w s) hrst hbusy hd, dhtStartHigh_withSensorWave]

end Sys2Proof.Proofs
end

section
/-! PROOFS. The state of the block (10_state.md): the invariant in three parts, the registers, the response and the
phases of the two protocols, each kept by every step; which steps write the stored bytes; and the counter's reads. -/

namespace Sys2Proof.Proofs

open Sys2Proof Sys2Proof.Machine Sys2Proof.Laws

/-! ### Widths -/

theorem maxTicks_lt_pow (c : Config) : c.maxTicks < 2 ^ c.w := by
  have := maxTicks_add_one c
  omega

theorem tStartLow_lt_pow (c : Config) : c.tStartLow < 2 ^ c.w :=
  (show c.tStartLow ≤ c.maxTicks from c.tStartLow_le).trans_lt (maxTicks_lt_pow c)

theorem tStartHigh_lt_pow (c : Config) : c.tStartHigh < 2 ^ c.w := c.tStartHigh_lt.trans (tStartLow_lt_pow c)

theorem lt_pow_rw_of_lt_pow_w {c : Config} {n : Nat} (h : n < 2 ^ c.w) : n < 2 ^ c.rw :=
  h.trans_le (Nat.pow_le_pow_right (by decide) (Nat.le_max_left c.w 8))

theorem lt_pow_rw_of_lt_256 (c : Config) {n : Nat} (h : n < 2 ^ 8) : n < 2 ^ c.rw :=
  h.trans_le (Nat.pow_le_pow_right (by decide) (Nat.le_max_right c.w 8))

/-! ### After a bit is stored -/

/-- After bit `n` the next cell is armed, or after bit 39 the frame is validated (43_dht11.md R107). -/
theorem dhtNextCell_cases (n : Fin 40) (s : State) :
    (∃ h : n.val + 1 < 40, dhtNextCell n s = armFull { s with dhtState := .sampleLow ⟨n.val + 1, h⟩ }) ∨
    (n.val + 1 = 40 ∧ dhtNextCell n s = { s with dhtState := .validating }) := by
  unfold dhtNextCell
  split_ifs with h
  · exact .inl ⟨h, rfl⟩
  · exact .inr ⟨by omega, rfl⟩

/-- After bit `n` the next interval is armed, or after bit 31 the frame is validated (44_irremote.md R120). -/
theorem irNextInterval_cases (n : Fin 32) (s : State) :
    (∃ h : n.val + 1 < 32, irNextInterval n s = armFull { s with irState := .sampleLow ⟨n.val + 1, h⟩ }) ∨
    (n.val + 1 = 32 ∧ irNextInterval n s = { s with irState := .validating }) := by
  unfold irNextInterval
  split_ifs with h
  · exact .inl ⟨h, rfl⟩
  · exact .inr ⟨by omega, rfl⟩

/-- Arming the next cell or the validation writes `dht_state` and the counter only. -/
theorem dhtNextCell_frame (n : Fin 40) (s : State) : dhtNextCell n s = { s with
    dhtState := (dhtNextCell n s).dhtState, cnt := (dhtNextCell n s).cnt, limit := (dhtNextCell n s).limit } := by
  unfold dhtNextCell
  split_ifs <;> rfl

/-- Arming the next interval or the validation writes `ir_state` and the counter only. -/
theorem irNextInterval_frame (n : Fin 32) (s : State) : irNextInterval n s = { s with
    irState := (irNextInterval n s).irState, cnt := (irNextInterval n s).cnt
    limit := (irNextInterval n s).limit } := by
  unfold irNextInterval
  split_ifs <;> rfl

/-- After a handshake phase comes a phase or the first separator (43_dht11.md R112). -/
theorem dhtAfterPhase_cases (p : Fin 4) : (∃ q, dhtAfterPhase p = .await q) ∨ dhtAfterPhase p = .sampleLow 0 := by
  unfold dhtAfterPhase
  split_ifs with h
  · exact .inl ⟨_, rfl⟩
  · exact .inr rfl

/-! ### The three parts of the invariant -/

/-- The registers of the counter and of the frame hold what their widths allow, and an unread command implies the
shifted windows: the clauses of `State.Inv` that name no state machine. -/
structure RegistersFit (s : State) : Prop where
  cnt_lt : s.cnt < 2 ^ s.cfg.w
  limit_lt : s.limit < 2 ^ s.cfg.w
  edge_lt : s.irEdgeTicks < 2 ^ s.cfg.w
  len_le : s.frameLen ≤ 40
  wr_le : s.frameWr ≤ s.frameLen
  frame_wf : s.frame.wf = true
  unread_offset : s.irUnread = true → s.irOffset = true

/-- With the parameters `c` the pins may present `r` while `busy` is `b`: the response clauses of `State.Inv`. -/
structure ResponseFits (c : Config) (b : Bool) (r : Response) : Prop where
  data_lt : r.data < 2 ^ c.rw
  quiet_of_invalid : r.valid = false → r = .quiet
  alone_of_ill : r.ill = true → r = illResponse
  quiet_of_busy : b = true → r = .quiet

/-- At most one acquisition is in flight, and what its phase demands holds: the clauses of `State.Inv` on the two
state machines. -/
structure PhasesHold (s : State) : Prop where
  dht_busy : s.dhtState.resting = false → s.busy = true ∧ s.irState.resting = true
  ir_busy : s.irState.resting = false → s.busy = true ∧ s.dhtState.resting = true
  dht_phase : dhtPhase s
  ir_phase : irPhase s

theorem inv_iff (s : State) : s.Inv ↔ RegistersFit s ∧ ResponseFits s.cfg s.busy s.rsp ∧ PhasesHold s where
  mp h := ⟨{ h with }, ⟨h.rsp_lt, h.rsp_quiet, h.rsp_ill, h.busy_quiet⟩, { h with }⟩
  mpr := fun ⟨hreg, hrsp, hphase⟩ =>
    { hreg, hphase with
      rsp_lt := hrsp.data_lt, rsp_quiet := hrsp.quiet_of_invalid
      rsp_ill := hrsp.alone_of_ill, busy_quiet := hrsp.quiet_of_busy }

/-- No clause of the invariant names the environment (10_state.md R14). -/
theorem inv_withEnv {s : State} (h : s.Inv) (e : Env) : ({ s with env := e } : State).Inv := { h with }

/-! ### The registers under each shared operation -/

theorem registersFit_letTickPass {s : State} (h : RegistersFit s) : RegistersFit (letTickPass s) :=
  { h with
    cnt_lt := by
      have hcnt := h.cnt_lt
      have hlimit := h.limit_lt
      change (if s.cnt < s.limit then s.cnt + 1 else s.cnt) < 2 ^ s.cfg.w
      split_ifs <;> omega }

theorem registersFit_startCount {s : State} {m : Nat} (h : RegistersFit s) (hm : m < 2 ^ s.cfg.w) :
    RegistersFit (startCount m s) :=
  { h with cnt_lt := Nat.two_pow_pos _, limit_lt := hm }

theorem registersFit_armFull {s : State} (h : RegistersFit s) : RegistersFit (armFull s) :=
  registersFit_startCount h (maxTicks_lt_pow s.cfg)

theorem registersFit_startFrame {s : State} {len : Nat} (h : RegistersFit s) (hlen : len ≤ 40) :
    RegistersFit (startFrame len s) :=
  { h with len_le := hlen, wr_le := Nat.zero_le _ }

/-- A bit is stored inside the frame and, by `frame_len ≤ 40`, inside the frame space. -/
theorem registersFit_storeBit {s : State} {p : Nat} (b : Bool) (h : RegistersFit s) (hp : p < s.frameLen) :
    RegistersFit (storeBit p b s) :=
  { h with wr_le := hp, frame_wf := wf_writeBit _ _ _ (hp.trans_le h.len_le) h.frame_wf }

theorem registersFit_raiseStatus {s : State} (p : Protocol) (st : Status) (h : RegistersFit s) :
    RegistersFit (raiseStatus p st s) := by
  have hframe := registersFit_startFrame h (Nat.zero_le 40)
  cases p with
  | dht => exact { hframe with }
  | ir => exact { hframe with }

theorem registersFit_dhtNextCell {s : State} (n : Fin 40) (h : RegistersFit s) :
    RegistersFit (dhtNextCell n s) := by
  obtain ⟨_, e⟩ | ⟨-, e⟩ := dhtNextCell_cases n s <;> rw [e]
  · exact registersFit_armFull { h with }
  · exact { h with }

theorem registersFit_irNextInterval {s : State} (n : Fin 32) (h : RegistersFit s) :
    RegistersFit (irNextInterval n s) := by
  obtain ⟨_, e⟩ | ⟨-, e⟩ := irNextInterval_cases n s <;> rw [e]
  · exact registersFit_armFull { h with }
  · exact { h with }

/-! ### The responses the block presents -/

theorem responseFits_quiet (c : Config) (b : Bool) : ResponseFits c b .quiet where
  data_lt := Nat.two_pow_pos _
  quiet_of_invalid _ := rfl
  alone_of_ill h := nomatch h
  quiet_of_busy _ := rfl

theorem responseFits_ill (c : Config) {b : Bool} (hb : b = false) : ResponseFits c b illResponse where
  data_lt := Nat.two_pow_pos _
  quiet_of_invalid h := nomatch h
  alone_of_ill _ := rfl
  quiet_of_busy h := absurd h (by simp [hb])

/-- A response that is no refusal, presented with the port open, fits when its data does. -/
theorem responseFits_of_data_lt {c : Config} {b : Bool} {r : Response} (hb : b = false)
    (hvalid : r.valid = true) (hill : r.ill = false) (hdata : r.data < 2 ^ c.rw) : ResponseFits c b r where
  data_lt := hdata
  quiet_of_invalid h := absurd h (by simp [hvalid])
  alone_of_ill h := absurd h (by simp [hill])
  quiet_of_busy h := absurd h (by simp [hb])

theorem responseFits_data {c : Config} {b : Bool} {n : Nat} (hb : b = false) (hn : n < 2 ^ c.rw) :
    ResponseFits c b (dataResponse n) :=
  responseFits_of_data_lt hb rfl rfl hn

theorem responseFits_ack (c : Config) {b : Bool} (hb : b = false) : ResponseFits c b ackResponse :=
  responseFits_data hb (Nat.two_pow_pos _)

theorem responseFits_byte (c : Config) {b : Bool} (v : Byte) (hb : b = false) :
    ResponseFits c b (dataResponse v.toNat) :=
  responseFits_data hb (lt_pow_rw_of_lt_256 c v.isLt)

theorem responseFits_bit (c : Config) {b : Bool} (v : Bool) (hb : b = false) :
    ResponseFits c b (bitResponse v) :=
  responseFits_data hb (lt_pow_rw_of_lt_256 c (v.toNat_lt.trans (by decide)))

theorem responseFits_status (c : Config) (st : Status) : ResponseFits c false (statusResponse st) :=
  responseFits_of_data_lt rfl rfl rfl (Nat.two_pow_pos _)

theorem responseFits_measure {c : Config} {n : Nat} (timeout : Bool) (hn : n < 2 ^ c.w) :
    ResponseFits c false (measureResponse n timeout) :=
  responseFits_of_data_lt rfl rfl rfl (lt_pow_rw_of_lt_pow_w hn)

/-! ### The phases of the two protocols -/

theorem dhtPhase_iff_sensing_of_resting {s : State} (h : s.dhtState.resting = true) :
    dhtPhase s ↔ sensing s := by
  cases hd : s.dhtState <;> simp [hd, DhtState.resting] at h <;> simp [dhtPhase, hd]

theorem irPhase_of_resting {s : State} (h : s.irState.resting = true) : irPhase s := by
  cases hi : s.irState <;> simp [hi, IrState.resting] at h <;> simp [irPhase, hi]

/-- With both machines at rest the sensor line is all the phases speak of; the engine may run `ET_MEASURE`. -/
theorem phasesHold_of_resting {s : State} (hd : s.dhtState.resting = true) (hi : s.irState.resting = true)
    (hs : sensing s) : PhasesHold s where
  dht_busy h := absurd h (by simp [hd])
  ir_busy h := absurd h (by simp [hi])
  dht_phase := (dhtPhase_iff_sensing_of_resting hd).mpr hs
  ir_phase := irPhase_of_resting hi

theorem phasesHold_of_sensor_running {s : State} (hb : s.busy = true) (hi : s.irState.resting = true)
    (hp : dhtPhase s) : PhasesHold s where
  dht_busy _ := ⟨hb, hi⟩
  ir_busy h := absurd h (by simp [hi])
  dht_phase := hp
  ir_phase := irPhase_of_resting hi

theorem phasesHold_of_remote_running {s : State} (hb : s.busy = true) (hd : s.dhtState.resting = true)
    (hs : sensing s) (hp : irPhase s) : PhasesHold s where
  dht_busy h := absurd h (by simp [hd])
  ir_busy _ := ⟨hb, hd⟩
  dht_phase := (dhtPhase_iff_sensing_of_resting hd).mpr hs
  ir_phase := hp

/-- While the port is open both machines rest and the sensor line is in sense mode. -/
theorem PhasesHold.of_not_busy {s : State} (h : PhasesHold s) (hb : s.busy = false) :
    s.dhtState.resting = true ∧ s.irState.resting = true ∧ sensing s := by
  have hd : s.dhtState.resting = true := by
    by_contra hd
    simpa [hb] using h.dht_busy (by simpa using hd)
  have hi : s.irState.resting = true := by
    by_contra hi
    simpa [hb] using h.ir_busy (by simpa using hi)
  exact ⟨hd, hi, (dhtPhase_iff_sensing_of_resting hd).mp h.dht_phase⟩

theorem acquiring_armFull {len wr : Nat} {s : State} (hlen : s.frameLen = len) (hwr : s.frameWr = wr) :
    acquiring len wr (armFull s) :=
  ⟨hlen, hwr, rfl, Nat.zero_le _⟩

/-- A tick does not take the count past the bound (40_edgetimer.md R80). -/
theorem cnt_le_limit_letTickPass {s : State} (h : s.cnt ≤ s.limit) :
    (letTickPass s).cnt ≤ (letTickPass s).limit := by
  change (if s.cnt < s.limit then s.cnt + 1 else s.cnt) ≤ s.limit
  split_ifs <;> omega

theorem acquiring_letTickPass {len wr : Nat} {s : State} (h : acquiring len wr s) :
    acquiring len wr (letTickPass s) := by
  obtain ⟨hlen, hwr, hlimit, hcnt⟩ := h
  exact ⟨hlen, hwr, hlimit, cnt_le_limit_letTickPass hcnt⟩

theorem dhtPhase_letTickPass {s : State} (h : dhtPhase s) : dhtPhase (letTickPass s) := by
  have hd' : (letTickPass s).dhtState = s.dhtState := rfl
  cases hd : s.dhtState <;> simp only [dhtPhase, hd, hd'] at h ⊢
  case startLow =>
    obtain ⟨hoe, hout, hlimit, hcnt⟩ := h
    exact ⟨hoe, hout, hlimit, cnt_le_limit_letTickPass hcnt⟩
  case startHigh =>
    obtain ⟨hoe, hout, hlimit, hcnt⟩ := h
    exact ⟨hoe, hout, hlimit, cnt_le_limit_letTickPass hcnt⟩
  case idle => exact h
  case done => exact h
  case failed => exact h
  all_goals exact ⟨h.1, acquiring_letTickPass h.2⟩

theorem irPhase_letTickPass {s : State} (h : irPhase s) : irPhase (letTickPass s) := by
  have hi' : (letTickPass s).irState = s.irState := rfl
  cases hi : s.irState <;> simp only [irPhase, hi, hi'] at h ⊢
  all_goals exact acquiring_letTickPass h

theorem phasesHold_letTickPass {s : State} (h : PhasesHold s) : PhasesHold (letTickPass s) :=
  { h with dht_phase := dhtPhase_letTickPass h.dht_phase, ir_phase := irPhase_letTickPass h.ir_phase }

/-! ### The phases under a transition of the sensor protocol -/

/-- A state of a running `DHT_ACQUIRE`: the port is closed and the remote protocol rests. -/
theorem PhasesHold.of_sensor_running {s : State} {d : DhtState} (h : PhasesHold s) (hd : s.dhtState = d)
    (hr : d.resting = false) : s.busy = true ∧ s.irState.resting = true :=
  h.dht_busy (by rw [hd, hr])

theorem PhasesHold.dhtOe_of_startLow {s : State} (h : PhasesHold s) (hd : s.dhtState = .startLow) :
    s.dhtOe = true := by
  have hphase := h.dht_phase
  simp only [dhtPhase, hd] at hphase
  exact hphase.1

theorem PhasesHold.dhtOut_of_startHigh {s : State} (h : PhasesHold s) (hd : s.dhtState = .startHigh) :
    s.dhtOut = true := by
  have hphase := h.dht_phase
  simp only [dhtPhase, hd] at hphase
  obtain ⟨-, hout, -⟩ := hphase
  exact hout

/-- After the start signal every state of `DHT_ACQUIRE` senses the line with a frame of 40 begun. -/
theorem PhasesHold.of_await {s : State} {p : Fin 4} (h : PhasesHold s) (hd : s.dhtState = .await p) :
    sensing s ∧ acquiring 40 0 s := by
  simpa only [dhtPhase, hd] using h.dht_phase

theorem PhasesHold.of_cellLow {s : State} {n : Fin 40} (h : PhasesHold s) (hd : s.dhtState = .sampleLow n) :
    sensing s ∧ acquiring 40 n s := by
  simpa only [dhtPhase, hd] using h.dht_phase

theorem PhasesHold.of_cellHigh {s : State} {n : Fin 40} (h : PhasesHold s) (hd : s.dhtState = .sampleHigh n) :
    sensing s ∧ acquiring 40 n s := by
  simpa only [dhtPhase, hd] using h.dht_phase

theorem PhasesHold.of_dhtValidating {s : State} (h : PhasesHold s) (hd : s.dhtState = .validating) :
    sensing s ∧ acquiring 40 40 s := by
  simpa only [dhtPhase, hd] using h.dht_phase

theorem phasesHold_raise_dht {s : State} (st : Status) (hi : s.irState.resting = true) (hs : sensing s) :
    PhasesHold (raiseStatus .dht st s) :=
  phasesHold_of_resting rfl hi hs

theorem phasesHold_awaitEnd {s : State} {p : Fin 4} (h : PhasesHold s) (hd : s.dhtState = .await p) :
    PhasesHold (armFull { noResponse s with dhtState := dhtAfterPhase p }) := by
  obtain ⟨hb, hi⟩ := h.of_sensor_running hd rfl
  obtain ⟨hs, hlen, hwr, -⟩ := h.of_await hd
  obtain ⟨q, e⟩ | e := dhtAfterPhase_cases p <;> rw [e]
  · exact phasesHold_of_sensor_running hb hi ⟨hs, acquiring_armFull hlen hwr⟩
  · exact phasesHold_of_sensor_running hb hi ⟨hs, acquiring_armFull hlen hwr⟩

theorem phasesHold_cellHighEnd {s : State} {n : Fin 40} (b : Bool) (h : PhasesHold s)
    (hd : s.dhtState = .sampleHigh n) : PhasesHold (dhtNextCell n (storeBit n.val b (noResponse s))) := by
  obtain ⟨hb, hi⟩ := h.of_sensor_running hd rfl
  obtain ⟨hs, hlen, -, hlimit, hcnt⟩ := h.of_cellHigh hd
  obtain ⟨_, e⟩ | ⟨hn, e⟩ := dhtNextCell_cases n (storeBit n.val b (noResponse s)) <;> rw [e]
  · exact phasesHold_of_sensor_running hb hi ⟨hs, acquiring_armFull hlen rfl⟩
  · exact phasesHold_of_sensor_running hb hi ⟨hs, hlen, hn, hlimit, hcnt⟩

/-! ### The phases under a transition of the remote protocol -/

/-- A state of a running `IR_WAIT`: the port is closed and the sensor line is in sense mode. -/
theorem PhasesHold.of_remote_running {s : State} {i : IrState} (h : PhasesHold s) (hi : s.irState = i)
    (hr : i.resting = false) : s.busy = true ∧ s.dhtState.resting = true ∧ sensing s := by
  obtain ⟨hb, hd⟩ := h.ir_busy (by rw [hi, hr])
  exact ⟨hb, hd, (dhtPhase_iff_sensing_of_resting hd).mp h.dht_phase⟩

theorem PhasesHold.of_mark {s : State} {n : Fin 32} (h : PhasesHold s) (hi : s.irState = .sampleLow n) :
    acquiring 32 n s := by
  simpa only [irPhase, hi] using h.ir_phase

theorem PhasesHold.of_space {s : State} {n : Fin 32} (h : PhasesHold s) (hi : s.irState = .sampleHigh n) :
    acquiring 32 n s := by
  simpa only [irPhase, hi] using h.ir_phase

theorem phasesHold_markEnd {s : State} {n : Fin 32} (h : PhasesHold s) (hi : s.irState = .sampleLow n) :
    PhasesHold (armFull { noResponse s with irState := .sampleHigh n }) := by
  obtain ⟨hb, hd, hs⟩ := h.of_remote_running hi rfl
  obtain ⟨hlen, hwr, -⟩ := h.of_mark hi
  exact phasesHold_of_remote_running hb hd hs (acquiring_armFull hlen hwr)

theorem phasesHold_spaceEnd {s : State} {n : Fin 32} (b : Bool) (h : PhasesHold s)
    (hi : s.irState = .sampleHigh n) : PhasesHold (irNextInterval n (storeBit n.val b (noResponse s))) := by
  obtain ⟨hb, hd, hs⟩ := h.of_remote_running hi rfl
  obtain ⟨hlen, -, hlimit, hcnt⟩ := h.of_space hi
  obtain ⟨_, e⟩ | ⟨hn, e⟩ := irNextInterval_cases n (storeBit n.val b (noResponse s)) <;> rw [e]
  · exact phasesHold_of_remote_running hb hd hs (acquiring_armFull hlen rfl)
  · exact phasesHold_of_remote_running hb hd hs ⟨hlen, hn, hlimit, hcnt⟩

theorem phasesHold_raise_ir {s : State} (st : Status) (hd : s.dhtState.resting = true) (hs : sensing s) :
    PhasesHold (raiseStatus .ir st s) :=
  phasesHold_of_resting hd rfl hs

/-! ### Every transition of the engine keeps the invariant -/

theorem move_registersFit {s t : State} (h : Move s t) (hreg : RegistersFit s) (hphase : PhasesHold s) :
    RegistersFit t := by
  cases h with
  | startLowEnd => exact registersFit_startCount { hreg with } (tStartHigh_lt_pow s.cfg)
  | startHighEnd => exact registersFit_armFull (registersFit_startFrame { hreg with } (le_refl 40))
  | awaitEnd | cellLowEnd | markEnd => exact registersFit_armFull { hreg with }
  | cellHighEnd n hd =>
    obtain ⟨-, hlen, -⟩ := hphase.of_cellHigh hd
    exact registersFit_dhtNextCell n (registersFit_storeBit _ { hreg with } (hlen.symm ▸ n.isLt))
  | spaceEnd n _ hi =>
    obtain ⟨hlen, -⟩ := hphase.of_space hi
    exact registersFit_irNextInterval n (registersFit_storeBit _ { hreg with } (hlen.symm ▸ n.isLt))
  | awaitTimeout | cellLowTimeout | cellHighTimeout | sumBad | markTimeout | spaceTimeout | allOnes | overwrite =>
    exact registersFit_raiseStatus _ _ hreg
  | sumGood => exact { registersFit_startFrame hreg (Nat.zero_le 40) with }
  | commandGood => exact { registersFit_startFrame hreg (Nat.zero_le 40) with unread_offset := fun _ => rfl }
  | measureEnd | measureTimeout => exact { hreg with }
  | _ => exact registersFit_letTickPass hreg

theorem move_responseFits {s t : State} (h : Move s t) (hreg : RegistersFit s) :
    ResponseFits t.cfg t.busy t.rsp := by
  cases h with
  | cellHighEnd => rw [dhtNextCell_frame]; exact responseFits_quiet _ _
  | spaceEnd => rw [irNextInterval_frame]; exact responseFits_quiet _ _
  | awaitTimeout | cellLowTimeout | cellHighTimeout | sumGood | sumBad => exact responseFits_status _ _
  | markTimeout | spaceTimeout | allOnes | overwrite | commandGood => exact responseFits_status _ _
  | measureEnd | measureTimeout => exact responseFits_measure _ hreg.cnt_lt
  | _ => exact responseFits_quiet _ _

theorem move_phasesHold {s t : State} (h : Move s t) (hphase : PhasesHold s) : PhasesHold t := by
  cases h with
  | startLowEnd hd =>
    obtain ⟨hb, hi⟩ := hphase.of_sensor_running hd rfl
    exact phasesHold_of_sensor_running hb hi ⟨hphase.dhtOe_of_startLow hd, rfl, rfl, Nat.zero_le _⟩
  | startHighEnd hd =>
    obtain ⟨hb, hi⟩ := hphase.of_sensor_running hd rfl
    exact phasesHold_of_sensor_running hb hi ⟨⟨rfl, hphase.dhtOut_of_startHigh hd⟩, acquiring_armFull rfl rfl⟩
  | awaitEnd p hd => exact phasesHold_awaitEnd hphase hd
  | awaitTimeout p hd =>
    exact phasesHold_raise_dht _ (hphase.of_sensor_running hd rfl).2 (hphase.of_await hd).1
  | cellLowEnd n hd =>
    obtain ⟨hb, hi⟩ := hphase.of_sensor_running hd rfl
    obtain ⟨hs, hlen, hwr, -⟩ := hphase.of_cellLow hd
    exact phasesHold_of_sensor_running hb hi ⟨hs, acquiring_armFull hlen hwr⟩
  | cellLowTimeout n hd =>
    exact phasesHold_raise_dht _ (hphase.of_sensor_running hd rfl).2 (hphase.of_cellLow hd).1
  | cellHighEnd n hd => exact phasesHold_cellHighEnd _ hphase hd
  | cellHighTimeout n hd =>
    exact phasesHold_raise_dht _ (hphase.of_sensor_running hd rfl).2 (hphase.of_cellHigh hd).1
  | sumGood p hd =>
    exact phasesHold_of_resting rfl (hphase.of_sensor_running hd rfl).2 (hphase.of_dhtValidating hd).1
  | sumBad p hd =>
    exact phasesHold_raise_dht _ (hphase.of_sensor_running hd rfl).2 (hphase.of_dhtValidating hd).1
  | markEnd n hd hi => exact phasesHold_markEnd hphase hi
  | spaceEnd n hd hi => exact phasesHold_spaceEnd _ hphase hi
  | markTimeout _ hd | spaceTimeout _ hd | allOnes _ hd | overwrite _ hd =>
    exact phasesHold_raise_ir _ hd ((dhtPhase_iff_sensing_of_resting hd).mp hphase.dht_phase)
  | commandGood _ hd =>
    exact phasesHold_of_resting hd rfl ((dhtPhase_iff_sensing_of_resting hd).mp hphase.dht_phase)
  | measureEnd hd hi | measureTimeout hd hi =>
    exact phasesHold_of_resting hd hi ((dhtPhase_iff_sensing_of_resting hd).mp hphase.dht_phase)
  | _ => exact phasesHold_letTickPass hphase

theorem move_inv {s t : State} (h : Move s t) (hinv : s.Inv) : t.Inv := by
  obtain ⟨hreg, -, hphase⟩ := (inv_iff s).mp hinv
  exact (inv_iff t).mpr ⟨move_registersFit h hreg hphase, move_responseFits h hreg, move_phasesHold h hphase⟩

/-! ### Every accepted operation keeps the invariant -/

theorem Accepted.registersFit {s t : State} {i : Instr} (h : Accepted s i t) (hreg : RegistersFit s) :
    RegistersFit t := by
  cases h with
  | cntReset => exact { hreg with cnt_lt := Nat.two_pow_pos _ }
  | cntArm => exact { hreg with limit_lt := Nat.mod_lt _ (Nat.two_pow_pos _) }
  | etArm => exact { registersFit_armFull hreg with }
  | faClear _ hlen => exact { registersFit_startFrame hreg hlen.2 with }
  | faPush bit hlt => exact { registersFit_storeBit bit hreg hlt with }
  | dhtAcquire => exact registersFit_startCount { hreg with } (tStartLow_lt_pow s.cfg)
  | irWait => exact registersFit_armFull (registersFit_startFrame { hreg with } (by decide))
  | irReadCmd | irReadAddr => exact { hreg with unread_offset := fun h => nomatch h }
  | irEdge => exact { hreg with edge_lt := hreg.cnt_lt }
  | _ => exact { hreg with }

theorem Accepted.responseFits {s t : State} {i : Instr} (h : Accepted s i t) (hb : s.busy = false)
    (hreg : RegistersFit s) : ResponseFits t.cfg t.busy t.rsp := by
  cases h with
  | etMeasure | dhtAcquire | irWait => exact responseFits_quiet _ _
  | faClearRefused | faPushRefused | faPackRefused | irWaitRefused => exact responseFits_ill _ hb
  | cntTicks | etCount => exact responseFits_data hb (lt_pow_rw_of_lt_pow_w hreg.cnt_lt)
  | cntExpired | pcClassify | irAvail => exact responseFits_bit _ _ hb
  | faPack | dhtReadTemp | dhtReadHum | irReadCmd | irReadAddr => exact responseFits_byte _ _ hb
  | _ => exact responseFits_ack _ hb

theorem Accepted.phasesHold {s t : State} {i : Instr} (h : Accepted s i t) (hb : s.busy = false)
    (hphase : PhasesHold s) : PhasesHold t := by
  obtain ⟨hd, hi, hs⟩ := hphase.of_not_busy hb
  cases h with
  | dhtAcquire => exact phasesHold_of_sensor_running rfl hi ⟨rfl, rfl, rfl, Nat.zero_le _⟩
  | irWait => exact phasesHold_of_remote_running rfl hd hs (acquiring_armFull rfl rfl)
  | irEdge | irClrEdge => exact phasesHold_of_resting hd rfl hs
  | _ => exact phasesHold_of_resting hd hi hs

theorem Accepted.inv {s t : State} {i : Instr} (h : Accepted s i t) (hb : s.busy = false) (hinv : s.Inv) :
    t.Inv := by
  obtain ⟨hreg, -, hphase⟩ := (inv_iff s).mp hinv
  exact (inv_iff t).mpr ⟨h.registersFit hreg, h.responseFits hb hreg, h.phasesHold hb hphase⟩

/-! ### Every step keeps the invariant -/

theorem letTickPass_inv {s : State} (hinv : s.Inv) : (letTickPass s).Inv := by
  obtain ⟨hreg, -, hphase⟩ := (inv_iff s).mp hinv
  exact (inv_iff _).mpr
    ⟨registersFit_letTickPass hreg, responseFits_quiet _ _, phasesHold_letTickPass hphase⟩

theorem refuse_inv {s : State} (hb : s.busy = false) (hinv : s.Inv) : (refuse s).Inv := by
  obtain ⟨hreg, -, hphase⟩ := (inv_iff s).mp hinv
  exact (inv_iff _).mpr ⟨{ hreg with }, responseFits_ill _ hb, { hphase with }⟩

/-- The reset values of 70_reset_and_hazards.md R156 meet the invariant. -/
theorem resetOf_inv (c : Config) : (State.resetOf c).Inv :=
  (inv_iff _).mpr ⟨
    { cnt_lt := Nat.two_pow_pos _, limit_lt := maxTicks_lt_pow c, edge_lt := Nat.two_pow_pos _
      len_le := Nat.zero_le _, wr_le := Nat.zero_le _, frame_wf := wf_reset c
      unread_offset := fun h => nomatch h },
    responseFits_quiet _ _, phasesHold_of_resting rfl rfl ⟨rfl, rfl⟩⟩

/-- Settles O50, by the five kinds of step: each transition of the engine and each accepted operation keeps the three
parts of the invariant, none of which names the environment. -/
theorem stepKeepsInvariant : Obligations.StepKeepsInvariant := by
  intro s t hinv hstep
  rcases step_cases s t hstep with ⟨-, rfl⟩ | ⟨-, -, hengine⟩ | ⟨-, -, rest, rfl, -⟩ |
    ⟨-, hb, w, a, b, rest, i, -, -, hexec⟩ | ⟨-, hb, w, a, b, rest, e, -, -, rfl⟩
  · exact inv_withEnv (resetOf_inv s.cfg) _
  · exact move_inv (engineStep_move s t hengine) hinv
  · exact letTickPass_inv (inv_withEnv hinv _)
  · exact (exec_accepted hexec).inv hb (inv_withEnv hinv _)
  · exact refuse_inv (s := sampleCommand a b rest s) hb (inv_withEnv hinv _)

/-! ### The stored bytes of the sensor -/

/-- `t` holds the three stored sensor bytes of `s` (10_state.md R22). -/
def keepsSensorBytes (s t : State) : Prop := t.dhtHum = s.dhtHum ∧ t.dhtTemp = s.dhtTemp ∧ t.dhtPar = s.dhtPar

/-- The transition from `s` to `t` is the return of `DHT_ACQUIRE` with `Ok` (43_dht11.md R116). -/
def returnsSensorOk (s t : State) : Prop :=
  s.dhtState = .validating ∧ t.dhtState = .done ∧ t.busy = false ∧ t.rsp = statusResponse .ok

theorem move_keepsSensorBytes_or_returnsSensorOk {s t : State} (h : Move s t) :
    keepsSensorBytes s t ∨ returnsSensorOk s t := by
  cases h with
  | sumGood p hd => exact .inr ⟨hd, rfl, rfl, rfl⟩
  | cellHighEnd => rw [dhtNextCell_frame]; exact .inl ⟨rfl, rfl, rfl⟩
  | spaceEnd => rw [irNextInterval_frame]; exact .inl ⟨rfl, rfl, rfl⟩
  | _ => exact .inl ⟨rfl, rfl, rfl⟩

theorem Accepted.keepsSensorBytes {s t : State} {i : Instr} (h : Accepted s i t) : keepsSensorBytes s t := by
  cases h <;> exact ⟨rfl, rfl, rfl⟩

/-- Settles O35: of the steps without `rst`, only the engine's `Done` writes a stored sensor byte. -/
theorem sensorBytesChangeOnlyOnOk : Obligations.SensorBytesChangeOnlyOnOk := by
  intro s t hrst hstep hchanged
  rcases step_cases s t hstep with ⟨hrst', -⟩ | ⟨-, hb, hengine⟩ | ⟨-, -, rest, rfl, -⟩ |
    ⟨-, -, w, a, b, rest, i, -, -, hexec⟩ | ⟨-, -, w, a, b, rest, e, -, -, rfl⟩
  · simp [hrst] at hrst'
  · exact ⟨hb, (move_keepsSensorBytes_or_returnsSensorOk (engineStep_move s t hengine)).resolve_left hchanged⟩
  · exact absurd ⟨rfl, rfl, rfl⟩ hchanged
  · exact absurd (exec_accepted hexec).keepsSensorBytes hchanged
  · exact absurd ⟨rfl, rfl, rfl⟩ hchanged

/-! ### The stored command of the remote protocol -/

/-- `t` holds the stored address, command and `ir_offset` of `s`, and no command of `t` is unread that was not so in
`s` (10_state.md R25 to R27). -/
def keepsCommand (s t : State) : Prop :=
  (t.irAddr = s.irAddr ∧ t.irCmd = s.irCmd ∧ t.irOffset = s.irOffset) ∧ (t.irUnread = true → s.irUnread = true)

/-- The transition from `s` to `t` is the return of `IR_WAIT` with `Ok` (44_irremote.md R129). -/
def returnsCommandOk (s t : State) : Prop :=
  s.irState = .validating ∧ t.irState = .done ∧ t.busy = false ∧ t.irUnread = true ∧ t.irOffset = true ∧
    t.rsp = statusResponse .ok

theorem move_keepsCommand_or_returnsCommandOk {s t : State} (h : Move s t) :
    keepsCommand s t ∨ returnsCommandOk s t := by
  cases h with
  | commandGood c _ hi => exact .inr ⟨hi, rfl, rfl, rfl, rfl, rfl⟩
  | cellHighEnd => rw [dhtNextCell_frame]; exact .inl ⟨⟨rfl, rfl, rfl⟩, id⟩
  | spaceEnd => rw [irNextInterval_frame]; exact .inl ⟨⟨rfl, rfl, rfl⟩, id⟩
  | _ => exact .inl ⟨⟨rfl, rfl, rfl⟩, id⟩

/-- An accepted operation may clear `ir_unread` (44_irremote.md R131, R132) and writes nothing else of the command. -/
theorem Accepted.keepsCommand {s t : State} {i : Instr} (h : Accepted s i t) : keepsCommand s t := by
  cases h with
  | irReadCmd | irReadAddr => exact ⟨⟨rfl, rfl, rfl⟩, fun h => nomatch h⟩
  | _ => exact ⟨⟨rfl, rfl, rfl⟩, id⟩

/-- What a step without `rst` does to the stored command. -/
theorem step_keepsCommand_or_returnsCommandOk {s t : State} (hrst : rstNow s.env = false)
    (hstep : step s = .next t) : keepsCommand s t ∨ (s.busy = true ∧ returnsCommandOk s t) := by
  rcases step_cases s t hstep with ⟨hrst', -⟩ | ⟨-, hb, hengine⟩ | ⟨-, -, rest, rfl, -⟩ |
    ⟨-, -, w, a, b, rest, i, -, -, hexec⟩ | ⟨-, -, w, a, b, rest, e, -, -, rfl⟩
  · simp [hrst] at hrst'
  · exact (move_keepsCommand_or_returnsCommandOk (engineStep_move s t hengine)).imp_right (⟨hb, ·⟩)
  · exact .inl ⟨⟨rfl, rfl, rfl⟩, id⟩
  · exact .inl (exec_accepted hexec).keepsCommand
  · exact .inl ⟨⟨rfl, rfl, rfl⟩, id⟩

/-- Settles O47: of the steps without `rst`, only the engine's `Done` does not keep the stored command. -/
theorem remoteBytesChangeOnlyOnOk : Obligations.RemoteBytesChangeOnlyOnOk := by
  intro s t hrst hstep hchanged
  rcases step_keepsCommand_or_returnsCommandOk hrst hstep with ⟨hbytes, hunread⟩ |
    ⟨hb, hi, hi', hb', hunread, hoffset, hrsp⟩
  · rcases hchanged with hbytes' | ⟨hread, hunread'⟩
    · exact absurd hbytes hbytes'
    · simp [hunread hunread'] at hread
  · exact ⟨hb, hi, hi', hb', hunread, hoffset, hrsp⟩

/-- Settles O46: without `rst` a step keeps `ir_offset` or, where `IR_WAIT` returns `Ok`, sets it. -/
theorem onlyResetClearsOffset : Obligations.OnlyResetClearsOffset := by
  intro s t hstep hset hclear
  by_contra hrst
  rcases step_keepsCommand_or_returnsCommandOk (by simpa using hrst) hstep with ⟨⟨-, -, hkept⟩, -⟩ |
    ⟨-, -, -, -, -, hoffset, -⟩
  · simp [hkept, hset] at hclear
  · simp [hoffset] at hclear

/-! ### The counter after `n` ticks -/

theorem countAfter_succ (n : Nat) (s : State) :
    countAfter (n + 1) s =
      if countAfter n s < s.limit then countAfter n s + 1 else countAfter n s := by
  unfold countAfter
  split_ifs <;> omega

theorem advance_envAfter (n : Nat) (e : Env) : (envAfter n e).advance = envAfter (n + 1) e := by
  simp only [Env.advance, envAfter, List.tail_drop, Nat.add_assoc]

theorem tick_stateAfter (n : Nat) (s : State) : (stateAfter n s).tick = stateAfter (n + 1) s := by
  change { s with
    cnt := if countAfter n s < s.limit then countAfter n s + 1 else countAfter n s
    env := (envAfter n s.env).advance } = { s with cnt := countAfter (n + 1) s, env := envAfter (n + 1) s.env }
  rw [countAfter_succ, advance_envAfter]

/-- `n` ticks with nothing else happening (40_edgetimer.md R80, R84), by induction on `n`. -/
theorem iterate_tick (n : Nat) (s : State) : Nat.iterate State.tick n s = stateAfter n s := by
  induction n with
  | zero =>
    have hcount : countAfter 0 s = s.cnt := by
      unfold countAfter
      split_ifs <;> omega
    simp only [Function.iterate_zero, id_eq, stateAfter, hcount]
    rfl
  | succ n ih => rw [Function.iterate_succ_apply', ih, tick_stateAfter]

/-- `rsp_data[0]` of a decision is 1 exactly when it holds. -/
theorem bitResponse_decide (p : Prop) [Decidable p] :
    bitResponse (decide p) = ⟨true, if p then 1 else 0, false, .ok, false⟩ := by
  by_cases h : p <;> simp [bitResponse, dataResponse, h]

/-- Settles O14: the two reads are responses of the unchanged state, and `n` ticks leave `countAfter n`. -/
theorem counterReadsWriteNothing : Obligations.CounterReadsWriteNothing := by
  refine ⟨rfl, rfl, fun s => ⟨?_, rfl, fun n => ⟨_, rfl, ?_⟩⟩⟩
  · change Host.Outcome.next (respond (bitResponse (decide (s.limit ≤ s.cnt))) s) = _
    rw [bitResponse_decide]
    rfl
  · change (Nat.iterate State.tick n s).cnt = countAfter n s
    rw [iterate_tick]
    rfl

end Sys2Proof.Proofs
end

section
/-! PROOFS. The frame space (20_memory.md): what a read of several positions answers, the windows of a sensor frame
and of a remote frame, and how the frame grows. -/

namespace Sys2Proof.Proofs

open Sys2Proof Sys2Proof.Machine Sys2Proof.Laws

/-! ### Reading several positions -/

/-- The `n`-bit number whose bits, most significant first, are `b 0` to `b (n - 1)` (20_memory.md R43). -/
def bitSum (b : Nat → Bool) (n : Nat) : Nat := ∑ i ∈ Finset.range n, (b i).toNat * 2 ^ (n - 1 - i)

/-- The first bit weighs `2 ^ n`; the others make the number of the remaining `n` bits. -/
theorem bitSum_succ (b : Nat → Bool) (n : Nat) :
    bitSum b (n + 1) = (b 0).toNat * 2 ^ n + bitSum (fun i => b (i + 1)) n := by
  have hweight (i : Nat) : n - 1 - i = n - (i + 1) := by omega
  simp only [bitSum, Finset.sum_range_succ', Nat.add_sub_cancel, Nat.sub_zero, hweight]
  exact Nat.add_comm _ _

/-- One more position of value 0 below the `n` bits doubles the weight of each. -/
theorem two_mul_bitSum (b : Nat → Bool) (n : Nat) :
    2 * bitSum b n = ∑ i ∈ Finset.range n, (b i).toNat * 2 ^ (n - i) := by
  rw [bitSum, Finset.mul_sum]
  refine Finset.sum_congr rfl fun i hi => ?_
  have hweight : n - i = n - 1 - i + 1 := by
    have := Finset.mem_range.mp hi
    omega
  rw [hweight, Nat.pow_succ]
  ring

/-- `MemRead(p, n)` by recursion on `n`: position `p` is the most significant bit (20_memory.md R43). -/
theorem read_eq_bitSum (m : Memory) {n p : Nat} {b : Nat → Bool}
    (h : ∀ i, i < n → m.readBit (p + i) = .ok (b i)) : m.read p n = .ok (bitSum b n) := by
  induction n generalizing p b with
  | zero => rfl
  | succ n ih =>
    have hfirst : m.readBit p = .ok (b 0) := h 0 (by omega)
    have hrest : m.read (p + 1) n = .ok (bitSum (fun i => b (i + 1)) n) := ih fun i hi => by
      rw [Nat.add_assoc, Nat.add_comm 1 i]
      exact h (i + 1) (by omega)
    simp only [Memory.read, hfirst, hrest, bitSum_succ]

theorem bitSum_lt_of_reads (m : Memory) {n p : Nat} {b : Nat → Bool}
    (h : ∀ i, i < n → m.readBit (p + i) = .ok (b i)) : bitSum b n < 2 ^ n := by
  obtain ⟨v, hv, hlt⟩ := read_of_bits m n p fun i hi => ⟨b i, h i hi⟩
  rw [read_eq_bitSum m h] at hv
  cases hv
  exact hlt

/-- Settles O57, for every width: the recursion of the read is that of the sum. -/
theorem memReadSumsItsPositions : Obligations.MemReadSumsItsPositions :=
  fun m _ _ _ _ _ _ h => ⟨read_eq_bitSum m h, bitSum_lt_of_reads m h⟩

/-! ### The windows of a frame -/

/-- `pack8` of a window drops no bit: eight positions make a number below 256 (20_memory.md R44). -/
theorem pack8_eq_bitSum (m : Memory) {p : Nat} {b : Nat → Bool}
    (h : ∀ i, i < 8 → m.readBit (p + i) = .ok (b i)) : ∃ v, m.pack8 p = .ok v ∧ v.toNat = bitSum b 8 :=
  ⟨BitVec.ofNat 8 (bitSum b 8), by simp only [Memory.pack8, read_eq_bitSum m h],
    by rw [BitVec.toNat_ofNat, Nat.mod_eq_of_lt (bitSum_lt_of_reads m h)]⟩

/-- The shifted command window: seven positions in value bits 7 to 1, and value bit 0 is 0 (20_memory.md R46). -/
theorem commandWindow_shifted_eq_bitSum (m : Memory) {b : Nat → Bool}
    (h : ∀ i, i < 7 → m.readBit (17 + i) = .ok (b i)) :
    ∃ v, m.commandWindow true = .ok v ∧ v.toNat = 2 * bitSum b 7 := by
  have hlt : 2 * bitSum b 7 < 2 ^ 8 := by
    have := bitSum_lt_of_reads m h
    omega
  exact ⟨BitVec.ofNat 8 (2 * bitSum b 7), by simp only [Memory.commandWindow, if_true, read_eq_bitSum m h],
    by rw [BitVec.toNat_ofNat, Nat.mod_eq_of_lt hlt]⟩

/-- Settles O58: each of the three windows reads its own eight positions and no padding. -/
theorem sensorWindowsSkipPadding : Obligations.SensorWindowsSkipPadding := by
  intro m b h
  obtain ⟨hum, ehum, vhum⟩ := pack8_eq_bitSum m (p := 0) (b := b) fun i hi => by
    rw [Nat.zero_add]
    exact h i (by omega)
  obtain ⟨temp, etemp, vtemp⟩ := pack8_eq_bitSum m fun i hi => h (16 + i) (by omega)
  obtain ⟨par, epar, vpar⟩ := pack8_eq_bitSum m fun i hi => h (32 + i) (by omega)
  exact ⟨⟨hum, temp, par⟩, by simp only [Memory.sensorPacket, ehum, etemp, epar], vhum, vtemp, vpar⟩

theorem remoteCommand_of_windows {m : Memory} {offset : Bool} {addr cmd : Byte}
    (ha : m.addressWindow offset = .ok addr) (hc : m.commandWindow offset = .ok cmd) :
    m.remoteCommand offset = .ok ⟨addr, cmd⟩ := by
  simp only [Memory.remoteCommand, ha, hc]

/-- Settles O59: without the offset both windows are `pack8`; with it the address is `pack8` one position on, and the
command is the shifted window. -/
theorem remoteWindowsFollowOffset : Obligations.RemoteWindowsFollowOffset := by
  intro m b h
  constructor
  · obtain ⟨addr, eaddr, vaddr⟩ := pack8_eq_bitSum m (p := 0) (b := b) fun i hi => by
      rw [Nat.zero_add]
      exact h i (by omega)
    obtain ⟨cmd, ecmd, vcmd⟩ := pack8_eq_bitSum m fun i hi => h (16 + i) (by omega)
    exact ⟨⟨addr, cmd⟩, remoteCommand_of_windows eaddr ecmd, vaddr, vcmd⟩
  · obtain ⟨addr, eaddr, vaddr⟩ := pack8_eq_bitSum m fun i hi => h (1 + i) (by omega)
    obtain ⟨cmd, ecmd, vcmd⟩ := commandWindow_shifted_eq_bitSum m fun i hi => h (17 + i) (by omega)
    exact ⟨⟨addr, cmd⟩, remoteCommand_of_windows eaddr ecmd, vaddr, vcmd.trans (two_mul_bitSum _ 7)⟩

/-! ### How the frame grows -/

/-- `t` holds every position of `s`, and `frame_wr` is kept or restarted at 0 (20_memory.md R42). -/
def keepsFrame (s t : State) : Prop := t.frame = s.frame ∧ (t.frameWr = s.frameWr ∨ t.frameWr = 0)

/-- `t` has one bit more than `s`, at position `frame_wr` inside the frame, and no other position differs
(20_memory.md R42). -/
def appendsBit (s t : State) : Prop :=
  s.frameWr < s.frameLen ∧ t.frameLen = s.frameLen ∧ t.frameWr = s.frameWr + 1 ∧
    (∃ b, t.frame.readBit s.frameWr = .ok b) ∧
    ∀ p, p ≠ s.frameWr → t.frame.readBit p = s.frame.readBit p

theorem appendsBit_storeBit {s : State} (b : Bool) (hwr : s.frameWr < s.frameLen) (hp : s.frameWr < 40) :
    appendsBit s (storeBit s.frameWr b s) := by
  have hread (p : Nat) : (storeBit s.frameWr b s).frame.readBit p =
      if p = s.frameWr then .ok b else s.frame.readBit p := readBit_writeBit s.frame s.frameWr p b hp
  exact ⟨hwr, rfl, rfl, ⟨b, by rw [hread, if_pos rfl]⟩, fun p hne => by rw [hread, if_neg hne]⟩

/-- In an acquisition bit `n` is stored at position `n`, which is `frame_wr`: `acquiring len n` says so. -/
theorem appendsBit_of_acquiring {s : State} {len n : Nat} (b : Bool) (h : acquiring len n s) (hn : n < len)
    (hlen : len ≤ 40) : appendsBit s (storeBit n b s) := by
  obtain ⟨rfl, rfl, -⟩ := h
  exact appendsBit_storeBit b hn (hn.trans_le hlen)

/-- Of the engine's transitions, those that end a cell or a space append a bit. -/
theorem move_keepsFrame_or_appendsBit {s t : State} (h : Move s t) (hphase : PhasesHold s) :
    keepsFrame s t ∨ appendsBit s t := by
  cases h with
  | cellHighEnd n hd =>
    rw [dhtNextCell_frame]
    exact .inr (appendsBit_of_acquiring _ (hphase.of_cellHigh hd).2 n.isLt (le_refl 40))
  | spaceEnd n _ hi =>
    rw [irNextInterval_frame]
    exact .inr (appendsBit_of_acquiring _ (hphase.of_space hi) n.isLt (by decide))
  | startHighEnd => exact .inl ⟨rfl, .inr rfl⟩
  | awaitTimeout | cellLowTimeout | cellHighTimeout | sumGood | sumBad => exact .inl ⟨rfl, .inr rfl⟩
  | markTimeout | spaceTimeout | allOnes | overwrite | commandGood => exact .inl ⟨rfl, .inr rfl⟩
  | _ => exact .inl ⟨rfl, .inl rfl⟩

/-- Of the operations at their acceptance, `FA_PUSH` alone appends a bit. -/
theorem Accepted.keepsFrame_or_appendsBit {s t : State} {i : Instr} (h : Accepted s i t) :
    keepsFrame s t ∨ appendsBit s t := by
  cases h with
  | faPush bit hwr hp => exact .inr (appendsBit_storeBit bit hwr hp)
  | faClear | irWait => exact .inl ⟨rfl, .inr rfl⟩
  | _ => exact .inl ⟨rfl, .inl rfl⟩

/-- Settles O60, by the kinds of step: the engine's transitions and the accepted operations keep the frame or append
a bit, and a tick or a refusal does not touch it. -/
theorem frameGrowsByAppending : Obligations.FrameGrowsByAppending := by
  intro s t hinv hrst hstep
  change keepsFrame s t ∨ appendsBit s t
  rcases step_cases s t hstep with ⟨hrst', -⟩ | ⟨-, -, hengine⟩ | ⟨-, -, rest, rfl, -⟩ |
    ⟨-, -, w, a, b, rest, i, -, -, hexec⟩ | ⟨-, -, w, a, b, rest, e, -, -, rfl⟩
  · simp [hrst] at hrst'
  · obtain ⟨-, -, hphase⟩ := (inv_iff s).mp hinv
    exact move_keepsFrame_or_appendsBit (engineStep_move s t hengine) hphase
  · exact .inl ⟨rfl, .inl rfl⟩
  · exact (exec_accepted hexec).keepsFrame_or_appendsBit
  · exact .inl ⟨rfl, .inl rfl⟩

end Sys2Proof.Proofs
end

section
/-! PROOFS. The encoding (30_encoding.md): the three fields of a command word, the operation a word stands for, the
rows of the opcode table, the numeric codes, and what the command port accepts and answers. -/

namespace Sys2Proof.Proofs

open Sys2Proof Sys2Proof.Machine Sys2Proof.Laws

/-! ### The fields of a command word (30_encoding.md R64) -/

theorem unitOf_eq (w : Command) : unitOf w = w.toNat / 4096 := by
  have := w.isLt
  simp only [unitOf, BitVec.extractLsb'_toNat, Nat.shiftRight_eq_div_pow]
  omega

theorem funcOf_eq (w : Command) : funcOf w = w.toNat / 256 % 16 := by
  simp only [funcOf, BitVec.extractLsb'_toNat, Nat.shiftRight_eq_div_pow]

theorem immOf_eq (w : Command) : immOf w = w.toNat % 256 := by
  simp only [immOf, BitVec.extractLsb'_toNat, Nat.shiftRight_zero]

/-- The fields of a word fix it. -/
theorem command_of_fields {w : Command} {u f n : Nat} (hu : unitOf w = u) (hf : funcOf w = f) (hn : immOf w = n) :
    command u f n = w := by
  rw [unitOf_eq] at hu
  rw [funcOf_eq] at hf
  rw [immOf_eq] at hn
  apply BitVec.eq_of_toNat_eq
  rw [command, BitVec.toNat_ofNat]
  omega

theorem toNat_command {u f n : Nat} (hu : u < 16) (hf : f < 16) (hn : n < 256) :
    (command u f n).toNat = u * 4096 + f * 256 + n := by
  rw [command, BitVec.toNat_ofNat]
  omega

theorem unitOf_command {u f n : Nat} (hu : u < 16) (hf : f < 16) (hn : n < 256) : unitOf (command u f n) = u := by
  rw [unitOf_eq, toNat_command hu hf hn]
  omega

theorem funcOf_command {u f n : Nat} (hu : u < 16) (hf : f < 16) (hn : n < 256) : funcOf (command u f n) = f := by
  rw [funcOf_eq, toNat_command hu hf hn]
  omega

theorem immOf_command {u f n : Nat} (hu : u < 16) (hf : f < 16) (hn : n < 256) : immOf (command u f n) = n := by
  rw [immOf_eq, toNat_command hu hf hn]
  omega

theorem toNat_getLsbD (w : Command) (i : Nat) : (w.getLsbD i).toNat = w.toNat / 2 ^ i % 2 := by
  rw [← BitVec.testBit_toNat, Nat.toNat_testBit]

/-- An `imm` with no bit above `imm[0]` is that bit. -/
theorem immOf_eq_bit {w : Command} (h : immOf w < 2) : immOf w = (w.getLsbD 0).toNat := by
  rw [immOf_eq] at h
  rw [immOf_eq, toNat_getLsbD]
  omega

/-- An `imm` with no bit above `imm[1]` is made of its two bits. -/
theorem immOf_eq_two_bits {w : Command} (h : immOf w < 4) :
    immOf w = 2 * (w.getLsbD 1).toNat + (w.getLsbD 0).toNat := by
  rw [immOf_eq] at h
  rw [immOf_eq, toNat_getLsbD, toNat_getLsbD]
  omega

/-! ### The word of an operation (30_encoding.md R65, R66) -/

theorem withImm_of_lt {bits : Nat} {w : Command} (i : Instr) (h : immOf w < 2 ^ bits) : withImm bits w i = .ok i :=
  if_pos h

theorem withImm_eq_ok {bits : Nat} {w : Command} {i j : Instr} (h : withImm bits w i = .ok j) :
    immOf w < 2 ^ bits ∧ i = j := by
  unfold withImm at h
  split_ifs at h with hlt
  cases h
  exact ⟨hlt, rfl⟩

/-- `w` is the word of the operation `i`, which has an encoding. -/
def IsWordOf (w : Command) (i : Instr) : Prop := i.wellFormed = true ∧ encode i = w

/-- The word of an operation without a small operand has `imm = 0`. -/
theorem isWordOf_of_withImm_zero {w : Command} {u f : Nat} {i j : Instr} (hu : unitOf w = u) (hf : funcOf w = f)
    (h : withImm 0 w i = .ok j) (hwf : i.wellFormed = true) (henc : encode i = command u f 0) : IsWordOf w j := by
  obtain ⟨himm, rfl⟩ := withImm_eq_ok h
  exact ⟨hwf, henc.trans (command_of_fields hu hf (by omega))⟩

theorem toBit_ofBit (b : Bool) : (Line.ofBit b).toBit = b := by
  cases b <;> rfl

theorem decodeCounter_isWordOf {w : Command} {i : Instr} (hu : unitOf w = 0) (h : decodeCounter w = .ok i) :
    IsWordOf w i := by
  unfold decodeCounter at h
  split at h
  next hf => exact isWordOf_of_withImm_zero hu hf h rfl rfl
  next hf => exact isWordOf_of_withImm_zero hu hf h rfl rfl
  next hf => exact isWordOf_of_withImm_zero hu hf h rfl rfl
  next hf => exact isWordOf_of_withImm_zero hu hf h rfl rfl
  next => cases h

theorem decodeEdgeTimer_isWordOf {w : Command} {i : Instr} (hu : unitOf w = 1) (h : decodeEdgeTimer w = .ok i) :
    IsWordOf w i := by
  unfold decodeEdgeTimer at h
  split at h
  next hf => exact isWordOf_of_withImm_zero hu hf h rfl rfl
  next hf =>
    obtain ⟨himm, rfl⟩ := withImm_eq_ok h
    refine ⟨rfl, ?_⟩
    rw [encode, toBit_ofBit]
    exact command_of_fields hu hf (immOf_eq_two_bits himm)
  next hf => exact isWordOf_of_withImm_zero hu hf h rfl rfl
  next => cases h

theorem decodeClassifier_isWordOf {w : Command} {i : Instr} (hu : unitOf w = 2) (h : decodeClassifier w = .ok i) :
    IsWordOf w i := by
  unfold decodeClassifier at h
  split at h
  next hf => exact isWordOf_of_withImm_zero hu hf h rfl rfl
  next => cases h

theorem decodeFrameAssembler_isWordOf {w : Command} {i : Instr} (hu : unitOf w = 3)
    (h : decodeFrameAssembler w = .ok i) : IsWordOf w i := by
  unfold decodeFrameAssembler at h
  split at h
  next hf =>
    obtain ⟨himm, rfl⟩ := withImm_eq_ok h
    exact ⟨decide_eq_true himm, command_of_fields hu hf rfl⟩
  next hf =>
    obtain ⟨himm, rfl⟩ := withImm_eq_ok h
    exact ⟨rfl, command_of_fields hu hf (immOf_eq_bit himm)⟩
  next hf =>
    obtain ⟨himm, rfl⟩ := withImm_eq_ok h
    exact ⟨decide_eq_true himm, command_of_fields hu hf rfl⟩
  next => cases h

theorem decodeDht_isWordOf {w : Command} {i : Instr} (hu : unitOf w = 4) (h : decodeDht w = .ok i) :
    IsWordOf w i := by
  unfold decodeDht at h
  split at h
  next hf => exact isWordOf_of_withImm_zero hu hf h rfl rfl
  next hf => exact isWordOf_of_withImm_zero hu hf h rfl rfl
  next hf => exact isWordOf_of_withImm_zero hu hf h rfl rfl
  next => cases h

theorem decodeIr_isWordOf {w : Command} {i : Instr} (hu : unitOf w = 5) (h : decodeIr w = .ok i) :
    IsWordOf w i := by
  unfold decodeIr at h
  split at h
  next hf => exact isWordOf_of_withImm_zero hu hf h rfl rfl
  next hf => exact isWordOf_of_withImm_zero hu hf h rfl rfl
  next hf => exact isWordOf_of_withImm_zero hu hf h rfl rfl
  next hf => exact isWordOf_of_withImm_zero hu hf h rfl rfl
  next hf => exact isWordOf_of_withImm_zero hu hf h rfl rfl
  next hf => exact isWordOf_of_withImm_zero hu hf h rfl rfl
  next => cases h

/-- Settles O2, unit by unit: the fields of the word are those of the operation's own word. -/
theorem encodeOfDecodeIsIdentity : Obligations.EncodeOfDecodeIsIdentity := by
  intro w i h
  unfold decode at h
  split at h
  next hu => exact decodeCounter_isWordOf hu h
  next hu => exact decodeEdgeTimer_isWordOf hu h
  next hu => exact decodeClassifier_isWordOf hu h
  next hu => exact decodeFrameAssembler_isWordOf hu h
  next hu => exact decodeDht_isWordOf hu h
  next hu => exact decodeIr_isWordOf hu h
  next => cases h

/-! ### The words of an operation with a small operand (30_encoding.md R65) -/

/-- The fields of `w` are those of an operation of unit `u` and func `f` with an operand of `bits` bits. -/
structure HasFields (u f bits : Nat) (w : Command) : Prop where
  unit_eq : unitOf w = u
  func_eq : funcOf w = f
  imm_lt : immOf w < 2 ^ bits

theorem hasFields_command {u f n bits : Nat} (hu : u < 16) (hf : f < 16) (hn : n < 2 ^ bits) (hbits : bits ≤ 8) :
    HasFields u f bits (command u f n) := by
  have himm : n < 256 := hn.trans_le (Nat.pow_le_pow_right (by decide) hbits)
  exact ⟨unitOf_command hu hf himm, funcOf_command hu hf himm, by rwa [immOf_command hu hf himm]⟩

theorem decode_etMeasure {w : Command} (h : HasFields 1 1 2 w) :
    decode w = .ok (.etMeasure (w.getLsbD 0) (Line.ofBit (w.getLsbD 1))) := by
  simp only [decode, h.unit_eq, decodeEdgeTimer, h.func_eq, withImm_of_lt _ h.imm_lt]

theorem decode_faClear {w : Command} (h : HasFields 3 0 6 w) : decode w = .ok (.faClear (immOf w)) := by
  simp only [decode, h.unit_eq, decodeFrameAssembler, h.func_eq, withImm_of_lt _ h.imm_lt]

theorem decode_faPush {w : Command} (h : HasFields 3 1 1 w) : decode w = .ok (.faPush (w.getLsbD 0)) := by
  simp only [decode, h.unit_eq, decodeFrameAssembler, h.func_eq, withImm_of_lt _ h.imm_lt]

theorem decode_faPack {w : Command} (h : HasFields 3 2 6 w) : decode w = .ok (.faPack (immOf w)) := by
  simp only [decode, h.unit_eq, decodeFrameAssembler, h.func_eq, withImm_of_lt _ h.imm_lt]

/-- Settles O1, operation by operation: an operation with no operand or one of its bits has a fixed word, and a 6-bit
operand is the `imm` of its word. -/
theorem decodeOfEncodeIsIdentity : Obligations.DecodeOfEncodeIsIdentity := by
  intro i hwf
  cases i with
  | etMeasure level sel => cases level <;> cases sel <;> rfl
  | faPush bit => cases bit <;> rfl
  | faClear len =>
    have hlen : len < 2 ^ 6 := of_decide_eq_true hwf
    rw [encode, decode_faClear (hasFields_command (by decide) (by decide) hlen (by decide)),
      immOf_command (by decide) (by decide) (by omega)]
  | faPack start =>
    have hstart : start < 2 ^ 6 := of_decide_eq_true hwf
    rw [encode, decode_faPack (hasFields_command (by decide) (by decide) hstart (by decide)),
      immOf_command (by decide) (by decide) (by omega)]
  | _ => rfl

/-! ### The rows of the opcode table (30_encoding.md R66) -/

theorem selects_iff (r : OpcodeRow) (w : Command) : r.selects w = true ↔ w &&& r.mask = r.pattern := beq_iff_eq

/-- A mask that leaves the low `bits` bits free keeps the bits above them. -/
theorem toNat_and_mask (w : Command) (bits : Nat) :
    (w &&& (BitVec.allOnes 16 <<< bits)).toNat = w.toNat / 2 ^ bits * 2 ^ bits := by
  have hle : w.toNat / 2 ^ bits * 2 ^ bits < 2 ^ 16 := (Nat.div_mul_le_self _ _).trans_lt w.isLt
  rw [← BitVec.shiftLeft_ushiftRight, BitVec.toNat_shiftLeft, BitVec.toNat_ushiftRight, Nat.shiftLeft_eq,
    Nat.shiftRight_eq_div_pow, Nat.mod_eq_of_lt hle]

/-- A word that agrees with the word of `u`, `f` and `imm = 0` above its low `bits` bits has their fields. -/
theorem hasFields_of_and_mask {w : Command} {u f bits : Nat} (hu : u < 16) (hf : f < 16) (hbits : bits ≤ 8)
    (h : w &&& (BitVec.allOnes 16 <<< bits) = command u f 0) : HasFields u f bits w := by
  have hw := congrArg BitVec.toNat h
  rw [toNat_and_mask, toNat_command hu hf (by decide)] at hw
  refine ⟨(unitOf_eq w).trans ?_, (funcOf_eq w).trans ?_, (immOf_eq w).trans_lt ?_⟩ <;>
    (interval_cases bits <;> omega)

/-- The rows of operations without a small operand select one word, which decodes; the other four have an operand. -/
theorem opcodeRows_cases : ∀ r ∈ opcodeRows,
    (r.mask = BitVec.allOnes 16 ∧ (decode r.pattern).isOk = true) ∨
    r = ⟨"ET_MEASURE", command 1 1 0, BitVec.allOnes 16 <<< 2⟩ ∨
    r = ⟨"FA_CLEAR", command 3 0 0, BitVec.allOnes 16 <<< 6⟩ ∨
    r = ⟨"FA_PUSH", command 3 1 0, BitVec.allOnes 16 <<< 1⟩ ∨
    r = ⟨"FA_PACK", command 3 2 0, BitVec.allOnes 16 <<< 6⟩ := by decide

theorem exists_decode_of_isOk {w : Command} (h : (decode w).isOk = true) : ∃ i, decode w = .ok i := by
  cases hd : decode w with
  | ok i => exact ⟨i, rfl⟩
  | error e => rw [hd] at h; cases h

/-- A word that some row selects decodes. -/
theorem exists_decode_of_selects {w : Command} {r : OpcodeRow} (hr : r ∈ opcodeRows) (h : r.selects w = true) :
    ∃ i, decode w = .ok i := by
  rw [selects_iff] at h
  rcases opcodeRows_cases r hr with ⟨hmask, hok⟩ | rfl | rfl | rfl | rfl
  · rw [hmask, BitVec.and_allOnes] at h
    exact exists_decode_of_isOk (h ▸ hok)
  · exact ⟨_, decode_etMeasure (hasFields_of_and_mask (by decide) (by decide) (by decide) h)⟩
  · exact ⟨_, decode_faClear (hasFields_of_and_mask (by decide) (by decide) (by decide) h)⟩
  · exact ⟨_, decode_faPush (hasFields_of_and_mask (by decide) (by decide) (by decide) h)⟩
  · exact ⟨_, decode_faPack (hasFields_of_and_mask (by decide) (by decide) (by decide) h)⟩

theorem encodeMatchesRow (i : Instr) : EncodeMatchesRow.Statement i := by
  cases i with
  | etMeasure level sel => exact EncodeMatchesRow.etMeasure level sel
  | faClear len => exact EncodeMatchesRow.faClear len
  | faPush bit => exact EncodeMatchesRow.faPush bit
  | faPack start => exact EncodeMatchesRow.faPack start
  | _ => exact fun _ => rfl

/-- A word that decodes is selected by the row of its operation, because it is the operation's word. -/
theorem row_selects_of_decode {w : Command} {i : Instr} (h : decode w = .ok i) :
    ∃ r, opcodeRows[i.row]? = some r ∧ r.selects w = true := by
  obtain ⟨hwf, rfl⟩ := encodeOfDecodeIsIdentity w i h
  exact Option.map_eq_some_iff.mp (encodeMatchesRow i hwf)

/-- Settles O3: a word that decodes is selected by its operation's row, and a word some row selects decodes. -/
theorem decoderFollowsOpcodeTable : Obligations.DecoderFollowsOpcodeTable := by
  refine fun w => ⟨⟨fun ⟨i, h⟩ => ?_, fun ⟨r, hr, h⟩ => exists_decode_of_selects hr h⟩,
    fun i h => row_selects_of_decode h⟩
  obtain ⟨r, hrow, hsel⟩ := row_selects_of_decode h
  exact ⟨r, List.mem_of_getElem? hrow, hsel⟩

/-- Every mask covers `unit` and `func`, and every row fixes `imm` to 0 where its mask covers it. -/
theorem opcodeRows_cover_unit_func :
    ∀ r ∈ opcodeRows, r.mask &&& 0xFF00 = 0xFF00 ∧ r.pattern &&& 0xFF00 = r.pattern := by decide

/-- A row fixes `unit` and `func` of the words it selects, and nothing else is in its pattern. -/
theorem pattern_of_selects {w : Command} {r : OpcodeRow} (hr : r ∈ opcodeRows) (h : r.selects w = true) :
    r.pattern = w &&& 0xFF00 := by
  obtain ⟨hmask, hpattern⟩ := opcodeRows_cover_unit_func r hr
  rw [selects_iff] at h
  calc r.pattern = (w &&& r.mask) &&& 0xFF00 := by rw [h, hpattern]
    _ = w &&& 0xFF00 := by rw [BitVec.and_assoc, hmask]

theorem opcodeRows_pattern_injective : ∀ j k : Fin 20,
    opcodeRows[j.val]?.map OpcodeRow.pattern = opcodeRows[k.val]?.map OpcodeRow.pattern → j = k := by decide

/-- Settles O4: rows that select the same word have the same pattern, and no two rows have. -/
theorem opcodeRowsNeverOverlap : Obligations.OpcodeRowsNeverOverlap := by
  intro w j k r q hj hk hr hq
  have hpattern : r.pattern = q.pattern :=
    (pattern_of_selects (List.mem_of_getElem? hj) hr).trans
      (pattern_of_selects (List.mem_of_getElem? hk) hq).symm
  refine opcodeRows_pattern_injective j k ?_
  rw [hj, hk, Option.map_some, Option.map_some, hpattern]

/-- Settles O5, by evaluating the decoder on each word. -/
theorem specWordsDecode : Obligations.SpecWordsDecode :=
  ⟨rfl, rfl, rfl, rfl, rfl, rfl, rfl, rfl, rfl, rfl, rfl, rfl, rfl, rfl, rfl, rfl, rfl⟩

/-! ### Status codes and state codes (30_encoding.md R67, R68) -/

/-- `major` stands above the six bits of `idx`. -/
theorem toNat_stateCode {major idx : Nat} (hmajor : major < 16) (hidx : idx < 64) :
    (stateCode major idx).toNat = 64 * major + idx := by
  rw [stateCode, BitVec.toNat_append, BitVec.toNat_ofNat, BitVec.toNat_ofNat, Nat.mod_eq_of_lt hmajor,
    Nat.mod_eq_of_lt hidx, ← Nat.shiftLeft_add_eq_or_of_lt hidx, Nat.shiftLeft_eq]
  omega

/-- The value of `dht_state` that the fields of a state code name. -/
def dhtStateOf (major idx : Nat) : DhtState :=
  match major with
  | 0 => .idle
  | 1 => .startLow
  | 2 => .startHigh
  | 3 => .await (Fin.ofNat 4 idx)
  | 4 => .sampleLow (Fin.ofNat 40 idx)
  | 5 => .sampleHigh (Fin.ofNat 40 idx)
  | 6 => .validating
  | 7 => .done
  | _ => .failed

/-- The value of `ir_state` that the fields of a state code name. -/
def irStateOf (major idx : Nat) : IrState :=
  match major with
  | 0 => .idle
  | 1 => .startDetected
  | 4 => .sampleLow (Fin.ofNat 32 idx)
  | 5 => .sampleHigh (Fin.ofNat 32 idx)
  | 6 => .validating
  | 7 => .done
  | _ => .failed

/-- `f` applied to the two fields of a state code. -/
def ofStateCode {α : Type} (f : Nat → Nat → α) (c : BitVec 10) : α := f (c.toNat / 64) (c.toNat % 64)

theorem ofStateCode_stateCode {α : Type} (f : Nat → Nat → α) {major idx : Nat} (hmajor : major < 16)
    (hidx : idx < 64) : ofStateCode f (stateCode major idx) = f major idx := by
  have hdiv : (64 * major + idx) / 64 = major := by omega
  have hmod : (64 * major + idx) % 64 = idx := by omega
  rw [ofStateCode, toNat_stateCode hmajor hidx, hdiv, hmod]

/-- The code of `dht_state` can be read back. -/
theorem ofStateCode_dhtCode (a : DhtState) : ofStateCode dhtStateOf a.code = a := by
  cases a with
  | await n | sampleLow n | sampleHigh n =>
    rw [DhtState.code, ofStateCode_stateCode _ (by decide) (by omega), dhtStateOf, Fin.ofNat_val_eq_self]
  | _ => rfl

/-- The code of `ir_state` can be read back. -/
theorem ofStateCode_irCode (a : IrState) : ofStateCode irStateOf a.code = a := by
  cases a with
  | sampleLow n | sampleHigh n =>
    rw [IrState.code, ofStateCode_stateCode _ (by decide) (by omega), irStateOf, Fin.ofNat_val_eq_self]
  | _ => rfl

/-- Settles O6: a code that can be read back belongs to one state only. -/
theorem codesAreDistinct : Obligations.CodesAreDistinct :=
  ⟨⟨rfl, rfl, rfl, rfl⟩, fun _ _ h => Function.LeftInverse.injective ofStateCode_dhtCode h,
    fun _ _ h => Function.LeftInverse.injective ofStateCode_irCode h⟩

/-! ### What the port accepts (30_encoding.md R62, R70) -/

theorem portStep_command {s : State} {w : Command} {a b : Nat} {rest : List HostEvent}
    (h : s.env.host = .command w a b :: rest) : portStep s = runCommand w (sampleCommand a b rest s) := by
  simp only [portStep, h]

theorem runCommand_of_decode_ok {w : Command} {i : Instr} (h : decode w = .ok i) (s : State) :
    runCommand w s = exec i s := by
  simp only [runCommand, h]

theorem runCommand_of_decode_error {w : Command} {e : Reserved} (h : decode w = .error e) (s : State) :
    runCommand w s = .next (refuse s) := by
  simp only [runCommand, h]

/-- Settles O7: the port runs the word, and the word stands for the operation. -/
theorem stepRunsDecodedCommand : Obligations.StepRunsDecodedCommand := by
  intro s w a b rest i hrst hbusy hhost hdecode
  rw [step_port s hrst hbusy, portStep_command hhost, runCommand_of_decode_ok hdecode]
  rfl

/-- A word that no row selects is reserved. -/
theorem decode_error_of_not_selected {w : Command} (h : ∀ r ∈ opcodeRows, r.selects w = false) :
    ∃ e, decode w = .error e := by
  cases hd : decode w with
  | error e => exact ⟨e, rfl⟩
  | ok i =>
    obtain ⟨r, hrow, hsel⟩ := row_selects_of_decode hd
    simp [h r (List.mem_of_getElem? hrow)] at hsel

/-- Settles O8: a word that no row selects does not decode, and its command is refused. -/
theorem reservedWordAnswersIll : Obligations.ReservedWordAnswersIll := by
  intro s w a b rest hrst hbusy hhost hreserved
  obtain ⟨e, he⟩ := decode_error_of_not_selected hreserved
  rw [step_port s hrst hbusy, portStep_command hhost, runCommand_of_decode_error he]
  rfl

/-- Settles O17: the acceptance of `ET_MEASURE` is written out in its definition. -/
theorem etMeasureIsAccepted : Obligations.EtMeasureIsAccepted := fun _ _ _ => rfl

/-- `t` has the host's next events and the sampled operands of `s`. -/
def keepsPort (s t : State) : Prop :=
  t.env.host = s.env.host ∧ t.env.dinA = s.env.dinA ∧ t.env.dinB = s.env.dinB

theorem move_keepsPort {s t : State} (h : Move s t) : keepsPort s t := by
  cases h with
  | cellHighEnd => rw [dhtNextCell_frame]; exact ⟨rfl, rfl, rfl⟩
  | spaceEnd => rw [irNextInterval_frame]; exact ⟨rfl, rfl, rfl⟩
  | _ => exact ⟨rfl, rfl, rfl⟩

/-- Settles O9: with `busy = 1` the step is the engine's, and no transition of the engine writes the port. -/
theorem busyPortAcceptsNothing : Obligations.BusyPortAcceptsNothing := by
  intro s t hrst hbusy hstep
  rw [step_engine s hrst hbusy] at hstep
  exact move_keepsPort (engineStep_move s t hstep)

/-! ### When the port answers (30_encoding.md R62, R69) -/

/-- In `t` a response is presented exactly when the port is open. -/
def answersWhenOpen (t : State) : Prop := t.rsp.valid = !t.busy

theorem answersWhenOpen_of_open {t : State} (hb : t.busy = false) (hv : t.rsp.valid = true) : answersWhenOpen t := by
  rw [answersWhenOpen, hb, hv, Bool.not_false]

theorem answersWhenOpen_of_closed {t : State} (hb : t.busy = true) (hv : t.rsp.valid = false) :
    answersWhenOpen t := by
  rw [answersWhenOpen, hb, hv, Bool.not_true]

/-- A transition of the engine is the return of the running operation, with its response, or presents nothing. -/
theorem move_answersWhenOpen {s t : State} (h : Move s t) (hb : s.busy = true) : answersWhenOpen t := by
  cases h with
  | cellHighEnd => rw [dhtNextCell_frame]; exact answersWhenOpen_of_closed hb rfl
  | spaceEnd => rw [irNextInterval_frame]; exact answersWhenOpen_of_closed hb rfl
  | awaitTimeout | cellLowTimeout | cellHighTimeout | sumGood | sumBad => exact answersWhenOpen_of_open rfl rfl
  | markTimeout | spaceTimeout | allOnes | overwrite | commandGood => exact answersWhenOpen_of_open rfl rfl
  | measureEnd | measureTimeout => exact answersWhenOpen_of_open rfl rfl
  | _ => exact answersWhenOpen_of_closed hb rfl

/-- An accepted operation closes the port and presents nothing, or answers at once. -/
theorem Accepted.answersWhenOpen {s t : State} {i : Instr} (h : Accepted s i t) (hb : s.busy = false) :
    answersWhenOpen t := by
  cases h with
  | etMeasure | dhtAcquire | irWait => exact answersWhenOpen_of_closed rfl rfl
  | _ => exact answersWhenOpen_of_open hb rfl

/-- A presented word is answered at once or closes the port, reserved words among them. -/
theorem runCommand_answersWhenOpen {w : Command} {s t : State} (hb : s.busy = false)
    (h : runCommand w s = .next t) : answersWhenOpen t := by
  cases hd : decode w with
  | ok i =>
    rw [runCommand_of_decode_ok hd] at h
    exact (exec_accepted h).answersWhenOpen hb
  | error e =>
    rw [runCommand_of_decode_error hd] at h
    cases h
    exact answersWhenOpen_of_open hb rfl

/-- Settles O55, by who makes the step: the engine, a presented command, or an idle host. -/
theorem responseOncePerCommand : Obligations.ResponseOncePerCommand := by
  intro s t hrst hstep
  refine ⟨fun hb => ?_, fun hb ⟨w, a, b, rest, hhost⟩ => ?_, fun hb hhost => ?_⟩
  · rw [step_engine s hrst hb] at hstep
    exact move_answersWhenOpen (engineStep_move s t hstep) hb
  · rw [step_port s hrst hb, portStep_command hhost] at hstep
    exact runCommand_answersWhenOpen (s := sampleCommand a b rest s) hb hstep
  · obtain ⟨rest, hidle⟩ : ∃ rest, s.env.host = .idle :: rest ∨ (s.env.host = [] ∧ rest = []) := by
      rcases hhost with hnil | ⟨rest, hcons⟩
      · exact ⟨[], .inr ⟨hnil, rfl⟩⟩
      · exact ⟨rest, .inl hcons⟩
    rw [step_port s hrst hb, portStep_nothing_presented hidle] at hstep
    cases hstep
    exact ⟨rfl, hb⟩

end Sys2Proof.Proofs
end

section
/-! PROOFS. The counter and the EdgeTimer (40_edgetimer.md): runs of several steps; the counter's writes; `ET_MEASURE`
in closed form; no step stops; and the ticks a running operation may still let pass. -/

namespace Sys2Proof.Proofs

open Sys2Proof Sys2Proof.Machine Sys2Proof.Laws

/-! ### Runs of several steps -/

theorem runSteps_succ {s t : State} (h : step s = .next t) (n : Nat) : runSteps (n + 1) s = runSteps n t := by
  rw [runSteps, h]

/-- A run is prolonged by a step at its end. -/
theorem runSteps_snoc {n : Nat} {s t u : State} (hrun : runSteps n s = .next t) (hstep : step t = .next u) :
    runSteps (n + 1) s = .next u := by
  induction n generalizing s with
  | zero =>
    cases hrun
    exact runSteps_succ hstep 0
  | succ n ih =>
    cases hs : step s with
    | next v =>
      rw [runSteps_succ hs] at hrun ⊢
      exact ih hrun
    | fault f => rw [runSteps, hs] at hrun; cases hrun
    | refused r => rw [runSteps, hs] at hrun; cases hrun

/-! ### The environment after `n` ticks -/

theorem rstNow_of_noReset {e : Env} (h : noReset e) : rstNow e = false := by
  have hnow : e.rstWave.headD false = e.rstWave.getD 0 false := by cases e.rstWave <;> rfl
  rw [rstNow, hnow]
  exact h 0

theorem noReset_envAfter {e : Env} (h : noReset e) (n : Nat) : noReset (envAfter n e) := fun i => by
  simpa only [envAfter, List.getD_eq_getElem?_getD, List.getElem?_drop] using h (n + i)

/-- The level of a line at the current tick, `n` ticks later (00_scope.md R11). -/
theorem lineNow_envAfter (e : Env) (sel : Line) (n : Nat) : lineNow (envAfter n e) sel = lineAhead e sel n := by
  have hhead (l : List Bool) (d : Bool) : (l.drop n).headD d = l.getD n d := by
    rw [List.headD_eq_head?, List.head?_drop, List.getD_eq_getElem?_getD]
  cases sel <;> exact hhead _ _

/-- A line holds its level for the next `d` ticks, or its run is shorter. -/
theorem holdsFor_or_isRun (e : Env) (sel : Line) (level : Bool) (d : Nat) :
    holdsFor e sel level d ∨ ∃ r, r < d ∧ isRun e sel level r := by
  induction d with
  | zero => exact .inl fun _ h => absurd h (Nat.not_lt_zero _)
  | succ d ih =>
    rcases ih with hholds | ⟨r, hr, hrun⟩
    · by_cases hlevel : lineAhead e sel d = level
      · refine .inl fun i hi => ?_
        rcases Nat.lt_succ_iff_lt_or_eq.mp hi with hlt | rfl
        · exact hholds i hlt
        · exact hlevel
      · exact .inr ⟨d, Nat.lt_succ_self d, hholds, hlevel⟩
    · exact .inr ⟨r, Nat.lt_succ_of_lt hr, hrun⟩

/-! ### The counter's operations (R80 to R82, R84, R85, R89) -/

/-- Settles O12: `n` ticks lead to `stateAfter n`, whose count and environment are those stated. -/
theorem ticksCountUpToTheBound : Obligations.TicksCountUpToTheBound := iterate_tick

/-- Settles O13: the two words decode, and each operation is a response of one register's write. -/
theorem counterWritesOneRegister : Obligations.CounterWritesOneRegister := ⟨rfl, rfl, fun _ => ⟨rfl, rfl⟩⟩

/-- A counter just armed for full scale has not expired, because full scale is positive. -/
theorem cnt_lt_limit_armFull (s : State) : (armFull s).cnt < (armFull s).limit := maxTicks_pos s.cfg

/-- Settles O15: the state is that of `armFull`, whose count of 0 is below full scale. -/
theorem etArmRestartsTheCounter : Obligations.EtArmRestartsTheCounter := by
  refine ⟨rfl, fun s => ⟨respond ackResponse (armFull s), rfl, rfl, ?_, ?_⟩⟩
  · exact decide_eq_false (Nat.not_le.mpr (cnt_lt_limit_armFull s))
  · exact if_pos (cnt_lt_limit_armFull s)

/-- Settles O16: `ET_COUNT` and `CNT_TICKS` are the same response of the unchanged state. -/
theorem etCountReadsTheCounter : Obligations.EtCountReadsTheCounter := ⟨rfl, fun _ => ⟨rfl, rfl⟩⟩

/-! ### The loop of `ET_MEASURE` (R86) -/

theorem measuring_iff (s : State) :
    measuring s = true ↔ s.busy = true ∧ s.dhtState.resting = true ∧ s.irState.resting = true := by
  rw [measuring, Bool.and_eq_true, Bool.and_eq_true, and_assoc]

theorem engineStep_eq_irStep {s : State} (h : s.dhtState.resting = true) : engineStep s = irStep s := by
  cases hd : s.dhtState with
  | idle | done | failed => simp only [engineStep, hd]
  | _ => simp [hd, DhtState.resting] at h

theorem irStep_eq_measureStep {s : State} (h : s.irState.resting = true) : irStep s = .next (measureStep s) := by
  cases hi : s.irState with
  | idle | startDetected | done | failed => simp only [irStep, hi]
  | _ => simp [hi, IrState.resting] at h

/-- While `ET_MEASURE` is the running operation, a step is one pass of its loop. -/
theorem step_measuring {s : State} (hm : measuring s = true) (hrst : noReset s.env) :
    step s = .next (measureStep s) := by
  obtain ⟨hb, hd, hi⟩ := (measuring_iff s).mp hm
  rw [step_engine s (rstNow_of_noReset hrst) hb, engineStep_eq_irStep hd, irStep_eq_measureStep hi]

theorem measureStep_timedOut {s : State} (h : s.limit ≤ s.cnt) :
    measureStep s = finish (measureResponse s.cnt true) s := by
  simp only [measureStep, poll_timedOut _ _ s h]

theorem measureStep_ended {s : State} (h : s.cnt < s.limit) (hl : lineNow s.env s.measSel ≠ s.measLevel) :
    measureStep s = finish (measureResponse s.cnt false) s := by
  simp only [measureStep, poll_ended _ _ s h hl]

theorem measureStep_running {s : State} (h : s.cnt < s.limit) (hl : lineNow s.env s.measSel = s.measLevel) :
    measureStep s = letTickPass s := by
  simp only [measureStep, poll_running _ _ s h hl]

theorem letTickPass_of_quiet {s : State} (h : s.rsp = .quiet) : letTickPass s = s.tick := by
  rw [letTickPass, noResponse, respond, ← h]

/-! ### `ET_MEASURE` from its acceptance to its return (R87) -/

/-- Up to the bound every tick counts. -/
theorem countAfter_of_le {n : Nat} {s : State} (h : n ≤ s.limit - s.cnt) : countAfter n s = s.cnt + n := by
  unfold countAfter
  split_ifs <;> omega

theorem stateAfter_of_le {n : Nat} {s : State} (h : n ≤ s.limit - s.cnt) :
    stateAfter n s = { s with cnt := s.cnt + n, env := envAfter n s.env } := by
  rw [stateAfter, countAfter_of_le h]

theorem step_measuring_stateAfter {t : State} (hm : measuring t = true) (hrst : noReset t.env) (n : Nat) :
    step (stateAfter n t) = .next (measureStep (stateAfter n t)) :=
  step_measuring (s := stateAfter n t) hm (noReset_envAfter hrst n)

section
variable {t : State} {n : Nat} (hm : measuring t = true) (hrst : noReset t.env) (hquiet : t.rsp = .quiet)
include hm hrst hquiet

/-- While the line holds the level and the bound is not reached, each step of `ET_MEASURE` lets a tick pass. -/
theorem runSteps_measuring_holds (hn : n ≤ t.limit - t.cnt) (hline : holdsFor t.env t.measSel t.measLevel n) :
    runSteps n t = .next (stateAfter n t) := by
  induction n with
  | zero => rw [← iterate_tick]; rfl
  | succ n ih =>
    have hrun := ih (by omega) fun i hi => hline i (by omega)
    have hcnt : (stateAfter n t).cnt < (stateAfter n t).limit := by
      change countAfter n t < t.limit
      rw [countAfter_of_le (by omega)]
      omega
    have hlevel : lineNow (stateAfter n t).env t.measSel = t.measLevel :=
      (lineNow_envAfter t.env t.measSel n).trans (hline n (Nat.lt_succ_self n))
    rw [runSteps_snoc hrun (step_measuring_stateAfter hm hrst n), measureStep_running hcnt hlevel,
      letTickPass_of_quiet (s := stateAfter n t) hquiet, tick_stateAfter]

/-- A run shorter than the ticks left to the bound is measured. -/
theorem runSteps_measuring_ended (hn : n < t.limit - t.cnt) (hrun : isRun t.env t.measSel t.measLevel n) :
    runSteps (n + 1) t = .next { t with
      cnt := t.cnt + n, busy := false, rsp := measureResponse (t.cnt + n) false, env := envAfter n t.env } := by
  obtain ⟨hholds, hend⟩ := hrun
  have hwait := runSteps_measuring_holds hm hrst hquiet hn.le hholds
  have hcnt : t.cnt + n < t.limit := by omega
  rw [← lineNow_envAfter] at hend
  rw [runSteps_snoc hwait (step_measuring_stateAfter hm hrst n), stateAfter_of_le hn.le,
    measureStep_ended hcnt hend]
  rfl

/-- A line that holds the level until the bound is reached is a timeout, the tie among them. -/
theorem runSteps_measuring_timedOut (hline : holdsFor t.env t.measSel t.measLevel (t.limit - t.cnt)) :
    runSteps (t.limit - t.cnt + 1) t = .next { t with
      cnt := t.cnt + (t.limit - t.cnt), busy := false, rsp := measureResponse (t.cnt + (t.limit - t.cnt)) true
      env := envAfter (t.limit - t.cnt) t.env } := by
  have hwait := runSteps_measuring_holds hm hrst hquiet le_rfl hline
  have hcnt : t.limit ≤ t.cnt + (t.limit - t.cnt) := by omega
  rw [runSteps_snoc hwait (step_measuring_stateAfter hm hrst _), stateAfter_of_le le_rfl,
    measureStep_timedOut hcnt]
  rfl

end

theorem measuring_of_accepted {s : State} (hd : s.dhtState.resting = true) (hi : s.irState.resting = true)
    (level : Bool) (sel : Line) :
    measuring { noResponse s with busy := true, measLevel := level, measSel := sel } = true :=
  (measuring_iff _).mpr ⟨rfl, hd, hi⟩

/-- Settles O18: the accepted measurement waits while the line holds the level, then ends or times out. -/
theorem etMeasureClosedForm : Obligations.EtMeasureClosedForm := by
  intro s level sel t hd hi hrst hexec
  cases hexec
  have hm := measuring_of_accepted hd hi level sel
  refine ⟨fun hexpired => ?_, fun r _ hrun hr => ?_, fun hlt hholds => ?_⟩
  · exact runSteps_snoc (n := 0) rfl
      ((step_measuring hm hrst).trans (congrArg Host.Outcome.next (measureStep_timedOut hexpired)))
  · exact runSteps_measuring_ended hm hrst rfl hr hrun
  · have hrun := runSteps_measuring_timedOut hm hrst rfl hholds
    simp only [noResponse_limit, noResponse_cnt, Nat.add_sub_cancel' hlt.le] at hrun
    exact hrun

/-- Settles O19: the three cases of the closed form, of which one holds for every line. -/
theorem etMeasureAlwaysReturns : Obligations.EtMeasureAlwaysReturns := by
  intro s level sel t hd hi hrst hexec
  obtain ⟨hexpired, hends, htimeout⟩ := etMeasureClosedForm s level sel t hd hi hrst hexec
  cases hexec
  rcases Nat.lt_or_ge s.cnt s.limit with hlt | hge
  · rcases holdsFor_or_isRun s.env sel level (s.limit - s.cnt) with hholds | ⟨r, hr, hrun⟩
    · exact ⟨_, _, le_rfl, htimeout hlt hholds, rfl, rfl, rfl, rfl, fun h => nomatch h⟩
    · exact ⟨r, _, hr.le, hends r hlt hrun hr, rfl, rfl, rfl, rfl, fun _ => Nat.add_lt_of_lt_sub' hr⟩
  · exact ⟨0, _, Nat.zero_le _, hexpired hge, rfl, rfl, rfl, rfl, fun h => nomatch h⟩

/-! ### No step stops -/

theorem dhtValidate_next (s : State) : ∃ t, dhtValidate s = .next t := by
  obtain ⟨p, hp⟩ := sensorPacket_ok s.frame
  simp only [dhtValidate, hp]
  exact ⟨_, rfl⟩

theorem irValidate_next (s : State) : ∃ t, irValidate s = .next t := by
  obtain ⟨c, hc⟩ := remoteCommand_ok s.frame s.irOffset
  simp only [irValidate, hc]
  exact ⟨_, rfl⟩

theorem irStep_next (s : State) : ∃ t, irStep s = .next t := by
  cases hi : s.irState with
  | validating => simpa only [irStep, hi] using irValidate_next s
  | _ => simp only [irStep, hi]; exact ⟨_, rfl⟩

/-- The engine never stops: the windows of a validated frame always read. -/
theorem engineStep_next (s : State) : ∃ t, engineStep s = .next t := by
  cases hd : s.dhtState with
  | validating => simpa only [engineStep, hd] using dhtValidate_next s
  | idle | done | failed => simpa only [engineStep, hd] using irStep_next s
  | _ => simp only [engineStep, hd]; exact ⟨_, rfl⟩

theorem execFaPush_next {s : State} (bit : Bool) (hlen : s.frameLen ≤ 40) : ∃ t, execFaPush bit s = .next t := by
  unfold execFaPush
  split_ifs with hfull hp
  · exact ⟨_, rfl⟩
  · exact ⟨_, rfl⟩
  · omega

theorem execFaPack_next {s : State} (start : Nat) (hlen : s.frameLen ≤ 40) :
    ∃ t, execFaPack start s = .next t := by
  unfold execFaPack
  split_ifs with hp
  · have hwindow : start + 8 ≤ s.frameLen := by
      rw [packable, Bool.and_eq_true, decide_eq_true_eq] at hp
      exact hp.2
    obtain ⟨b, hb⟩ := pack8_of_le s.frame start (hwindow.trans hlen)
    simp only [hb]
    exact ⟨_, rfl⟩
  · exact ⟨_, rfl⟩

/-- With `frame_len ≤ 40` (10_state.md R19) every operation answers a next state. -/
theorem exec_next {s : State} (i : Instr) (hlen : s.frameLen ≤ 40) : ∃ t, exec i s = .next t := by
  cases i with
  | faPush bit => exact execFaPush_next bit hlen
  | faPack start => exact execFaPack_next start hlen
  | _ => exact ⟨_, rfl⟩

theorem runCommand_next {s : State} (w : Command) (hlen : s.frameLen ≤ 40) : ∃ t, runCommand w s = .next t := by
  cases hd : decode w with
  | ok i => simpa only [runCommand_of_decode_ok hd] using exec_next i hlen
  | error e => exact ⟨_, runCommand_of_decode_error hd s⟩

theorem portStep_next {s : State} (hlen : s.frameLen ≤ 40) : ∃ t, portStep s = .next t := by
  unfold portStep
  split
  · exact ⟨_, rfl⟩
  · exact ⟨_, rfl⟩
  next w a b rest _ => exact runCommand_next (s := sampleCommand a b rest s) w hlen

/-- Settles O52: a reset and the engine never stop, and the port stops only for a frame longer than 40. -/
theorem invariantStepNeverStops : Obligations.InvariantStepNeverStops := by
  intro s hinv
  cases hrst : rstNow s.env with
  | true => exact ⟨_, step_reset s hrst⟩
  | false =>
    cases hb : s.busy with
    | true => rw [step_engine s hrst hb]; exact engineStep_next s
    | false => rw [step_port s hrst hb]; exact portStep_next hinv.len_le

/-! ### The ticks a running operation may still let pass (R88, 43_dht11.md R119, 44_irremote.md R133)

A window is a time the engine waits against one arming of the counter: a delay of the start signal, a handshake phase,
or one half of a cell or interval. -/

/-- The windows of `DHT_ACQUIRE` that are not over, the present one among them. -/
def dhtWindows : DhtState → Nat
  | .startLow => 86
  | .startHigh => 85
  | .await p => 84 - p
  | .sampleLow n => 80 - 2 * n
  | .sampleHigh n => 79 - 2 * n
  | .validating => 0
  | .idle => 0
  | .done => 0
  | .failed => 0

/-- The windows of `IR_WAIT` that are not over, the present one among them. -/
def irWindows : IrState → Nat
  | .sampleLow n => 64 - 2 * n
  | .sampleHigh n => 63 - 2 * n
  | .validating => 0
  | .idle => 0
  | .startDetected => 0
  | .done => 0
  | .failed => 0

/-- The windows of the running acquisition that are not over; 0 while `ET_MEASURE` runs. -/
def windowsLeft (s : State) : Nat := irWindows s.irState + dhtWindows s.dhtState

/-- The ticks of the windows after the present one: `MAX_TICKS` each, but `T_START_HIGH` the second of the start
signal (43_dht11.md R111). -/
def ticksOfLaterWindows (s : State) : Nat :=
  if s.dhtState = .startLow then s.cfg.tStartHigh + (windowsLeft s - 2) * s.cfg.maxTicks
  else (windowsLeft s - 1) * s.cfg.maxTicks

/-- The ticks the running operation may still let pass: those left in the present window and those of the later ones. -/
def ticksLeft (s : State) : Nat := s.limit - s.cnt + ticksOfLaterWindows s

theorem ticksLeft_of_not_startLow {s : State} (h : s.dhtState ≠ .startLow) :
    ticksLeft s = s.limit - s.cnt + (windowsLeft s - 1) * s.cfg.maxTicks := by
  rw [ticksLeft, ticksOfLaterWindows, if_neg h]

theorem ticksLeft_of_startLow {s : State} (h : s.dhtState = .startLow) :
    ticksLeft s = s.limit - s.cnt + (s.cfg.tStartHigh + (windowsLeft s - 2) * s.cfg.maxTicks) := by
  rw [ticksLeft, ticksOfLaterWindows, if_pos h]

theorem dhtWindows_of_resting {d : DhtState} (h : d.resting = true) : dhtWindows d = 0 := by
  cases d with
  | idle | done | failed => rfl
  | _ => simp [DhtState.resting] at h

theorem irWindows_of_resting {i : IrState} (h : i.resting = true) : irWindows i = 0 := by
  cases i with
  | idle | startDetected | done | failed => rfl
  | _ => simp [IrState.resting] at h

theorem dhtWindows_dhtAfterPhase : ∀ p : Fin 4, 1 ≤ dhtWindows (dhtAfterPhase p) ∧
    dhtAfterPhase p ≠ .startLow ∧ dhtWindows (dhtAfterPhase p) + 1 = dhtWindows (.await p) := by
  decide

theorem dhtWindows_sampleHigh (n : Fin 40) :
    1 ≤ dhtWindows (.sampleHigh n) ∧ dhtWindows (.sampleHigh n) + 1 = dhtWindows (.sampleLow n) := by
  simp only [dhtWindows]
  omega

theorem dhtWindows_nextCell {n : Nat} (h : n + 1 < 40) : 1 ≤ dhtWindows (.sampleLow ⟨n + 1, h⟩) ∧
    dhtWindows (.sampleLow ⟨n + 1, h⟩) + 1 = dhtWindows (.sampleHigh ⟨n, by omega⟩) := by
  simp only [dhtWindows]
  omega

theorem irWindows_sampleHigh (n : Fin 32) :
    1 ≤ irWindows (.sampleHigh n) ∧ irWindows (.sampleHigh n) + 1 = irWindows (.sampleLow n) := by
  simp only [irWindows]
  omega

theorem irWindows_nextInterval {n : Nat} (h : n + 1 < 32) : 1 ≤ irWindows (.sampleLow ⟨n + 1, h⟩) ∧
    irWindows (.sampleLow ⟨n + 1, h⟩) + 1 = irWindows (.sampleHigh ⟨n, by omega⟩) := by
  simp only [irWindows]
  omega

theorem dhtWindows_le {d : DhtState} (hlow : d ≠ .startLow) (hhigh : d ≠ .startHigh) : dhtWindows d ≤ 84 := by
  cases d with
  | startLow => exact absurd rfl hlow
  | startHigh => exact absurd rfl hhigh
  | _ => simp only [dhtWindows]; omega

theorem irWindows_le (i : IrState) : irWindows i ≤ 64 := by
  cases i with
  | sampleLow n | sampleHigh n => simp only [irWindows]; omega
  | _ => exact Nat.zero_le _

/-! ### Every transition comes nearer to the return -/

/-- From `s` to `t` the operation goes on and comes nearer to its return. -/
structure Advances (s t : State) : Prop where
  busy_eq : t.busy = s.busy
  noReset : noReset s.env → noReset t.env
  now_le : t.env.now + ticksLeft t ≤ s.env.now + ticksLeft s
  rank_lt : ticksLeft t + windowsLeft t < ticksLeft s + windowsLeft s

theorem noReset_advance {e : Env} (h : noReset e) : noReset e.advance := by
  rw [← envAfter_one]
  exact noReset_envAfter h 1

/-- A tick below the bound is one tick less in the present window. -/
theorem ticksLeft_letTickPass {s : State} (h : s.cnt < s.limit) : ticksLeft (letTickPass s) + 1 = ticksLeft s := by
  change s.limit - (if s.cnt < s.limit then s.cnt + 1 else s.cnt) + ticksOfLaterWindows s + 1 = _
  rw [if_pos h, ticksLeft]
  omega

theorem advances_letTickPass {s : State} (h : s.cnt < s.limit) : Advances s (letTickPass s) := by
  have hticks := ticksLeft_letTickPass h
  have hnow : (letTickPass s).env.now = s.env.now + 1 := rfl
  have hwindows : windowsLeft (letTickPass s) = windowsLeft s := rfl
  exact ⟨rfl, noReset_advance, by omega, by omega⟩

/-- `u` has the parameters, the environment and the `busy` of `s`. -/
def sameRun (s u : State) : Prop := u.cfg = s.cfg ∧ u.env = s.env ∧ u.busy = s.busy

/-- The end of a window takes no tick. -/
theorem advances_of_windowEnd {s t : State} (hrun : sameRun s t) (hwindows : windowsLeft t < windowsLeft s)
    (hticks : ticksLeft t ≤ ticksLeft s) : Advances s t := by
  obtain ⟨-, henv, hbusy⟩ := hrun
  exact ⟨hbusy, fun h => henv ▸ h, henv ▸ Nat.add_le_add_left hticks _, Nat.add_lt_add_of_le_of_lt hticks hwindows⟩

/-- The first window of the start signal is followed by the second, of `T_START_HIGH` ticks. -/
theorem advances_startLowEnd {s : State} (hd : s.dhtState = .startLow) :
    Advances s (startCount s.cfg.tStartHigh { noResponse s with dhtState := .startHigh, dhtOut := true }) := by
  have hwindows : windowsLeft s = irWindows s.irState + 86 := by rw [windowsLeft, hd]; rfl
  refine advances_of_windowEnd ⟨rfl, rfl, rfl⟩ (hwindows ▸ Nat.lt_succ_self (irWindows s.irState + 85)) ?_
  rw [ticksLeft_of_startLow hd, hwindows]
  exact Nat.le_add_left (s.cfg.tStartHigh + (irWindows s.irState + 84) * s.cfg.maxTicks) _

/-- The next window, armed for full scale, takes one of the windows left. -/
theorem advances_armFull {s u : State} (hrun : sameRun s u) (hs : s.dhtState ≠ .startLow)
    (hu : u.dhtState ≠ .startLow) (hpos : 1 ≤ windowsLeft u) (hnext : windowsLeft u + 1 = windowsLeft s) :
    Advances s (armFull u) := by
  have hlater : windowsLeft u - 1 + 1 = windowsLeft u := Nat.sub_add_cancel hpos
  refine advances_of_windowEnd hrun (hnext ▸ Nat.lt_succ_self (windowsLeft u)) ?_
  calc ticksLeft (armFull u)
      = u.cfg.maxTicks + (windowsLeft u - 1) * u.cfg.maxTicks := ticksLeft_of_not_startLow (s := armFull u) hu
    _ = windowsLeft u * s.cfg.maxTicks := by rw [Nat.add_comm, ← Nat.add_one_mul, hlater, hrun.1]
    _ ≤ ticksLeft s := by
        rw [ticksLeft_of_not_startLow hs, ← hnext, Nat.add_sub_cancel]
        exact Nat.le_add_left _ _

theorem advances_armFull_dht {s u : State} (hrun : sameRun s u) (hir : u.irState = s.irState)
    (hs : s.dhtState ≠ .startLow) (hu : u.dhtState ≠ .startLow) (hpos : 1 ≤ dhtWindows u.dhtState)
    (hnext : dhtWindows u.dhtState + 1 = dhtWindows s.dhtState) : Advances s (armFull u) :=
  advances_armFull hrun hs hu (hpos.trans (Nat.le_add_left _ _)) (by rw [windowsLeft, windowsLeft, hir]; omega)

theorem advances_armFull_ir {s u : State} (hrun : sameRun s u) (hdht : u.dhtState = s.dhtState)
    (hs : s.dhtState ≠ .startLow) (hpos : 1 ≤ irWindows u.irState)
    (hnext : irWindows u.irState + 1 = irWindows s.irState) : Advances s (armFull u) :=
  advances_armFull hrun hs (hdht ▸ hs) (hpos.trans (Nat.le_add_right _ _))
    (by rw [windowsLeft, windowsLeft, hdht]; omega)

/-- After the last window the frame is validated; the counter stands. -/
theorem advances_validating {s t : State} (hrun : sameRun s t) (hcounter : t.limit - t.cnt = s.limit - s.cnt)
    (hs : s.dhtState ≠ .startLow) (ht : t.dhtState ≠ .startLow) (hwindows : windowsLeft t < windowsLeft s) :
    Advances s t := by
  refine advances_of_windowEnd hrun hwindows ?_
  rw [ticksLeft_of_not_startLow hs, ticksLeft_of_not_startLow ht, hcounter, hrun.1]
  exact Nat.add_le_add_left (Nat.mul_le_mul_right _ (Nat.sub_le_sub_right hwindows.le 1)) _

theorem ne_startLow_of_resting {d : DhtState} (h : d.resting = true) : d ≠ .startLow := by
  rintro rfl
  exact Bool.false_ne_true h

theorem advances_cellHighEnd {s : State} {n : Fin 40} (b : Bool) (hd : s.dhtState = .sampleHigh n) :
    Advances s (dhtNextCell n (storeBit n.val b (noResponse s))) := by
  have hs : s.dhtState ≠ .startLow := by simp [hd]
  obtain ⟨hn, e⟩ | ⟨hn, e⟩ := dhtNextCell_cases n (storeBit n.val b (noResponse s)) <;> rw [e]
  · obtain ⟨hpos, hnext⟩ := dhtWindows_nextCell hn
    exact advances_armFull_dht ⟨rfl, rfl, rfl⟩ rfl hs DhtState.noConfusion hpos (hd ▸ hnext)
  · obtain ⟨hpos, -⟩ := dhtWindows_sampleHigh n
    refine advances_validating ⟨rfl, rfl, rfl⟩ rfl hs DhtState.noConfusion ?_
    rw [windowsLeft, windowsLeft, hd]
    exact Nat.add_lt_add_left hpos _

theorem advances_spaceEnd {s : State} {n : Fin 32} (b : Bool) (hd : s.dhtState.resting = true)
    (hi : s.irState = .sampleHigh n) : Advances s (irNextInterval n (storeBit n.val b (noResponse s))) := by
  have hs := ne_startLow_of_resting hd
  obtain ⟨hn, e⟩ | ⟨hn, e⟩ := irNextInterval_cases n (storeBit n.val b (noResponse s)) <;> rw [e]
  · obtain ⟨hpos, hnext⟩ := irWindows_nextInterval hn
    exact advances_armFull_ir ⟨rfl, rfl, rfl⟩ rfl hs hpos (hi ▸ hnext)
  · obtain ⟨hpos, -⟩ := irWindows_sampleHigh n
    refine advances_validating ⟨rfl, rfl, rfl⟩ rfl hs hs ?_
    rw [windowsLeft, windowsLeft, hi]
    exact Nat.add_lt_add_right hpos _

/-- What a transition of the engine does: it comes nearer to the return, or it is the return, which takes no tick. -/
theorem move_advances_or_returns {s t : State} (h : Move s t) :
    Advances s t ∨ (t.busy = false ∧ t.env = s.env) := by
  cases h with
  | startLowTick _ h | startHighTick _ h | awaitTick _ _ h | cellLowTick _ _ h | cellHighTick _ _ h =>
    exact .inl (advances_letTickPass h)
  | markTick _ _ _ h | spaceTick _ _ _ h | measureTick _ _ h => exact .inl (advances_letTickPass h)
  | startLowEnd hd => exact .inl (advances_startLowEnd hd)
  | startHighEnd hd =>
    exact .inl (advances_armFull_dht ⟨rfl, rfl, rfl⟩ rfl (by simp [hd]) DhtState.noConfusion
      (Nat.le_add_left 1 83) (by rw [hd]; rfl))
  | awaitEnd p hd =>
    obtain ⟨hpos, hne, hnext⟩ := dhtWindows_dhtAfterPhase p
    exact .inl (advances_armFull_dht ⟨rfl, rfl, rfl⟩ rfl (by simp [hd]) hne hpos (hd ▸ hnext))
  | cellLowEnd n hd =>
    obtain ⟨hpos, hnext⟩ := dhtWindows_sampleHigh n
    exact .inl (advances_armFull_dht ⟨rfl, rfl, rfl⟩ rfl (by simp [hd]) DhtState.noConfusion hpos (hd ▸ hnext))
  | cellHighEnd n hd => exact .inl (advances_cellHighEnd _ hd)
  | markEnd n hd hi =>
    obtain ⟨hpos, hnext⟩ := irWindows_sampleHigh n
    exact .inl (advances_armFull_ir ⟨rfl, rfl, rfl⟩ rfl (ne_startLow_of_resting hd) hpos (hi ▸ hnext))
  | spaceEnd n hd hi => exact .inl (advances_spaceEnd _ hd hi)
  | _ => exact .inr ⟨rfl, rfl⟩

/-! ### Every blocking operation returns -/

/-- With the port closed until then, `s` returns with a response after at most `b` ticks. -/
def ReturnsWithin (b : Nat) (s : State) : Prop :=
  ∃ n t, runSteps n s = .next t ∧ t.busy = false ∧ t.rsp.valid = true ∧
    (∀ k, k < n → ∃ u, runSteps k s = .next u ∧ u.busy = true ∧ u.rsp.valid = false) ∧
    t.env.now ≤ s.env.now + b

theorem returnsWithin_zero {s : State} (hb : s.busy = false) (hv : s.rsp.valid = true) : ReturnsWithin 0 s :=
  ⟨0, s, rfl, hb, hv, fun _ h => absurd h (Nat.not_lt_zero _), le_rfl⟩

theorem returnsWithin_of_step {s t : State} {b c : Nat} (hb : s.busy = true) (hv : s.rsp.valid = false)
    (hstep : step s = .next t) (hnow : t.env.now + b ≤ s.env.now + c) (h : ReturnsWithin b t) :
    ReturnsWithin c s := by
  obtain ⟨n, u, hrun, hu, hvu, hbefore, hnowu⟩ := h
  refine ⟨n + 1, u, (runSteps_succ hstep n).trans hrun, hu, hvu, fun k hk => ?_, hnowu.trans hnow⟩
  cases k with
  | zero => exact ⟨s, rfl, hb, hv⟩
  | succ k => rw [runSteps_succ hstep]; exact hbefore k (Nat.lt_of_succ_lt_succ hk)

/-- A running operation returns within `ticksLeft`, by induction on the ticks and windows left. -/
theorem returnsWithin_ticksLeft {s : State} (hb : s.busy = true) (hv : s.rsp.valid = false)
    (hrst : noReset s.env) : ReturnsWithin (ticksLeft s) s := by
  induction hrank : ticksLeft s + windowsLeft s using Nat.strong_induction_on generalizing s with
  | _ rank ih =>
    obtain ⟨t, hengine⟩ := engineStep_next s
    have hmove := engineStep_move s t hengine
    have hanswers : t.rsp.valid = !t.busy := move_answersWhenOpen hmove hb
    have hstep := (step_engine s (rstNow_of_noReset hrst) hb).trans hengine
    rcases move_advances_or_returns hmove with ⟨hbusy, hrst', hnow, hrank'⟩ | ⟨hbusy, henv⟩
    · rw [hbusy, hb] at hanswers
      exact returnsWithin_of_step hb hv hstep hnow
        (ih _ (hrank ▸ hrank') (hbusy.trans hb) hanswers (hrst' hrst) rfl)
    · rw [hbusy] at hanswers
      exact returnsWithin_of_step hb hv hstep (henv ▸ Nat.le_add_right _ _) (returnsWithin_zero hbusy hanswers)

/-! ### The bound of each operation -/

theorem limit_le_maxTicks {s : State} (hinv : s.Inv) : s.limit ≤ s.cfg.maxTicks := by
  have hlimit := hinv.limit_lt
  rw [← maxTicks_add_one] at hlimit
  omega

/-- After the start signal a window lasts at most `MAX_TICKS`. -/
theorem ticksLeft_le_mul {s : State} {k : Nat} (hinv : s.Inv) (hd : s.dhtState ≠ .startLow)
    (hk : windowsLeft s ≤ k + 1) : ticksLeft s ≤ (k + 1) * s.cfg.maxTicks := by
  have hlimit := limit_le_maxTicks hinv
  have hlater : (windowsLeft s - 1) * s.cfg.maxTicks ≤ k * s.cfg.maxTicks :=
    Nat.mul_le_mul_right _ (Nat.sub_le_of_le_add hk)
  rw [ticksLeft_of_not_startLow hd, Nat.succ_mul]
  omega

theorem windowsLeft_of_dht_running {s : State} (hinv : s.Inv) (hd : s.dhtState.resting = false) :
    windowsLeft s = dhtWindows s.dhtState := by
  rw [windowsLeft, irWindows_of_resting (hinv.dht_busy hd).2, Nat.zero_add]

theorem windowsLeft_of_dht_resting {s : State} (hd : s.dhtState.resting = true) :
    windowsLeft s = irWindows s.irState := by
  rw [windowsLeft, dhtWindows_of_resting hd, Nat.add_zero]

theorem ticksLeft_le_of_remote_running {s : State} (hinv : s.Inv) (hi : s.irState.resting = false) :
    ticksLeft s ≤ 64 * s.cfg.maxTicks := by
  obtain ⟨-, hd⟩ := hinv.ir_busy hi
  exact ticksLeft_le_mul hinv (ne_startLow_of_resting hd) (windowsLeft_of_dht_resting hd ▸ irWindows_le _)

theorem ticksLeft_of_measuring {s : State} (hm : measuring s = true) : ticksLeft s = s.limit - s.cnt := by
  obtain ⟨-, hd, hi⟩ := (measuring_iff s).mp hm
  rw [ticksLeft_of_not_startLow (ne_startLow_of_resting hd), windowsLeft_of_dht_resting hd,
    irWindows_of_resting hi, Nat.zero_sub, Nat.zero_mul, Nat.add_zero]

/-- The first window of the start signal lasts `T_START_LOW` (43_dht11.md R111). -/
theorem ticksLeft_le_of_startLow {s : State} (hinv : s.Inv) (hd : s.dhtState = .startLow) :
    ticksLeft s ≤ s.cfg.tStartLow + s.cfg.tStartHigh + 84 * s.cfg.maxTicks := by
  have hphase := hinv.dht_phase
  simp only [dhtPhase, hd] at hphase
  obtain ⟨-, -, hlimit, -⟩ := hphase
  have hticks : ticksLeft s = s.cfg.tStartLow - s.cnt + (s.cfg.tStartHigh + 84 * s.cfg.maxTicks) := by
    rw [ticksLeft_of_startLow hd, windowsLeft_of_dht_running hinv (by rw [hd]; rfl), hd, hlimit]
    rfl
  omega

/-- The second window of the start signal lasts `T_START_HIGH` (43_dht11.md R111). -/
theorem ticksLeft_le_of_startHigh {s : State} (hinv : s.Inv) (hd : s.dhtState = .startHigh) :
    ticksLeft s ≤ s.cfg.tStartHigh + 84 * s.cfg.maxTicks := by
  have hphase := hinv.dht_phase
  simp only [dhtPhase, hd] at hphase
  obtain ⟨-, -, hlimit, -⟩ := hphase
  have hticks : ticksLeft s = s.cfg.tStartHigh - s.cnt + 84 * s.cfg.maxTicks := by
    rw [ticksLeft_of_not_startLow (by simp [hd]), windowsLeft_of_dht_running hinv (by rw [hd]; rfl), hd, hlimit]
    rfl
  omega

/-- At most 84 windows are measured: 4 handshake phases and the 80 halves of 40 cells (43_dht11.md R119). -/
theorem ticksLeft_le_of_startSignal_over {s : State} (hinv : s.Inv) (hlow : s.dhtState ≠ .startLow)
    (hhigh : s.dhtState ≠ .startHigh) : ticksLeft s ≤ 84 * s.cfg.maxTicks := by
  refine ticksLeft_le_mul hinv hlow ?_
  cases hr : s.dhtState.resting with
  | false => exact windowsLeft_of_dht_running hinv hr ▸ dhtWindows_le hlow hhigh
  | true => exact (windowsLeft_of_dht_resting hr ▸ irWindows_le _).trans (by decide)

theorem ticksLeft_le {s : State} (hinv : s.Inv) :
    ticksLeft s ≤ s.cfg.tStartLow + s.cfg.tStartHigh + 84 * s.cfg.maxTicks := by
  by_cases hlow : s.dhtState = .startLow
  · exact ticksLeft_le_of_startLow hinv hlow
  by_cases hhigh : s.dhtState = .startHigh
  · have hticks := ticksLeft_le_of_startHigh hinv hhigh
    omega
  · have hticks := ticksLeft_le_of_startSignal_over hinv hlow hhigh
    omega

/-- Settles O53: the operation returns within `ticksLeft`, which each operation bounds in its own way. -/
theorem blockingOperationsReturn : Obligations.BlockingOperationsReturn := by
  intro s hinv hb hrst
  have hv : s.rsp.valid = false := by rw [hinv.busy_quiet hb]; rfl
  obtain ⟨n, t, hrun, ht, hvt, hbefore, hnow⟩ := returnsWithin_ticksLeft hb hv hrst
  refine ⟨n, t, hrun, ht, hvt, hbefore, ?_, fun hi => ?_, fun hm => ?_⟩
  · have hticks := ticksLeft_le hinv
    omega
  · have hticks := ticksLeft_le_of_remote_running hinv hi
    omega
  · rwa [← ticksLeft_of_measuring hm]

end Sys2Proof.Proofs
end

section
/-! PROOFS. The PulseClassifier (41_pulseclassifier.md): `classify` as the strict comparison, its monotonicity, and
`PC_CLASSIFY`. -/

namespace Sys2Proof.Proofs

open Sys2Proof Sys2Proof.Machine Sys2Proof.Laws

theorem classify_eq_true_iff {ticks threshold : Nat} : classify ticks threshold = true ↔ threshold < ticks :=
  decide_eq_true_iff

theorem classify_eq_false_iff {ticks threshold : Nat} : classify ticks threshold = false ↔ ticks ≤ threshold :=
  decide_eq_false_iff_not.trans Nat.not_lt

/-- A longer span never classifies lower (R96). -/
theorem classify_mono {a b : Nat} (threshold : Nat) (h : a ≤ b) :
    (classify a threshold).toNat ≤ (classify b threshold).toNat := by
  refine Bool.toNat_le_toNat (Bool.le_iff_imp.mpr fun ha => ?_)
  exact classify_eq_true_iff.mpr ((classify_eq_true_iff.mp ha).trans_le h)

/-- Settles O20: the operation only presents the bit of the comparison of its two operands. -/
theorem pcClassifyComparesItsOperands : Obligations.PcClassifyComparesItsOperands := by
  intro s
  change Host.Outcome.next (respond (bitResponse (decide (operandB s < operandA s))) s) = _
  rw [bitResponse_decide]
  rfl

/-- Settles O21: each corner case is a comparison with the threshold. -/
theorem classifyCornerCases : Obligations.ClassifyCornerCases := by
  intro c t ht
  refine ⟨?tie, fun _ => ?above, fun _ => ?below, ?zeroTicks, ?allOnesThreshold, ?zeroThreshold,
    fun _ _ => classify_mono t⟩
  case tie => exact classify_eq_false_iff.mpr le_rfl
  case above => exact classify_eq_true_iff.mpr (Nat.lt_succ_self t)
  case below => exact classify_eq_false_iff.mpr (Nat.sub_le t 1)
  case zeroTicks => exact classify_eq_false_iff.mpr (Nat.zero_le t)
  case allOnesThreshold => exact classify_eq_false_iff.mpr (Nat.le_sub_one_of_lt ht)
  case zeroThreshold => exact classify_eq_true_iff

end Sys2Proof.Proofs
end

section
/-! PROOFS. The FrameAssembler (42_frameassembler.md): `pack8` as a weighted sum, as a shifter and as the number of a
list of bits; the three operations; and a frame filled with pushes. -/

namespace Sys2Proof.Proofs

open Sys2Proof Sys2Proof.Machine Sys2Proof.Laws

/-! ### `pack8` as a weighted sum (R100) -/

theorem bitSum_eight (b : Nat → Bool) : bitSum b 8 =
    (b 0).toNat * 128 + (b 1).toNat * 64 + (b 2).toNat * 32 + (b 3).toNat * 16 +
      (b 4).toNat * 8 + (b 5).toNat * 4 + (b 6).toNat * 2 + (b 7).toNat := by
  simp [bitSum, Finset.sum_range_succ]

/-- Settles O25: the number of the window is the sum of its eight weighted bits. -/
theorem packWeighsItsBits : Obligations.PackWeighsItsBits := by
  intro m start b h
  obtain ⟨v, hv, hsum⟩ := pack8_eq_bitSum m (p := start) (b := fun i => b (Fin.ofNat 8 i)) fun i hi => by
    have hbit := h (Fin.ofNat 8 i)
    rwa [Fin.val_ofNat, Nat.mod_eq_of_lt hi] at hbit
  exact ⟨v, hv, hsum.trans (bitSum_eight _)⟩

/-! ### `pack8` as a shifter (R104) -/

/-- A register shifted by one place takes a bit at its free end. -/
theorem shiftLeft_one_or_bit (a : Nat) (b : Bool) :
    BitVec.ofNat 8 a <<< 1 ||| BitVec.ofNat 8 b.toNat = BitVec.ofNat 8 (2 * a + b.toNat) := by
  have hfree : a <<< 1 ||| b.toNat = 2 * a + b.toNat := by
    rw [← Nat.shiftLeft_add_eq_or_of_lt (Bool.toNat_lt b), Nat.shiftLeft_eq]
    omega
  have hshift : BitVec.ofNat 8 a <<< 1 = BitVec.ofNat 8 (a <<< 1) := by
    apply BitVec.eq_of_toNat_eq
    simp [Nat.shiftLeft_eq]
  rw [hshift, ← BitVec.ofNat_or, hfree]

/-- Shifting in the `n` bits of a window puts the window's number below what the register held, and stops where the
read of the window stops. -/
theorem shiftIn_eq_map_read (m : Memory) (n a p : Nat) :
    m.shiftIn (BitVec.ofNat 8 a) p n = (m.read p n).map fun v => BitVec.ofNat 8 (a * 2 ^ n + v) := by
  induction n generalizing a p with
  | zero => simp [Memory.shiftIn, Memory.read, Except.map]
  | succ n ih =>
    cases hbit : m.readBit p with
    | error f => simp only [Memory.shiftIn, Memory.read, hbit, Except.map]
    | ok b =>
      simp only [Memory.shiftIn, Memory.read, hbit, shiftLeft_one_or_bit, ih]
      cases m.read (p + 1) n with
      | error f => rfl
      | ok v =>
        have hweights : (2 * a + b.toNat) * 2 ^ n + v = a * 2 ^ (n + 1) + (b.toNat * 2 ^ n + v) := by ring
        simp only [Except.map, hweights]

theorem pack8_eq_map_read (m : Memory) (start : Nat) : m.pack8 start = (m.read start 8).map (BitVec.ofNat 8) := by
  unfold Memory.pack8
  cases m.read start 8 <;> rfl

/-- Settles O26: the shifter begins with an empty register, so it holds the number of the window. -/
theorem packingEqualsShifter : Obligations.PackingEqualsShifter := by
  intro m start
  have hshifter := shiftIn_eq_map_read m 8 0 start
  simp only [Nat.zero_mul, Nat.zero_add] at hshifter
  rw [pack8_eq_map_read]
  exact hshifter.symm

/-! ### A frame that holds a list of bits (20_memory.md R44, R47) -/

/-- Positions 0 to `bits.length - 1` of the frame space hold `bits`, in arrival order. -/
def holdsBits (m : Memory) (bits : List Bool) : Prop :=
  ∀ i, i < bits.length → m.readBit i = .ok (bits.getD i false)

/-- A bit stored at the first position behind the bits held is held behind them. -/
theorem holdsBits_writeBit {m : Memory} {bits : List Bool} (b : Bool) (h : holdsBits m bits)
    (hroom : bits.length < 40) : holdsBits (m.writeBit bits.length b) (bits ++ [b]) := by
  intro i hi
  rw [readBit_writeBit m _ _ b hroom]
  rcases Nat.lt_succ_iff_lt_or_eq.mp (by simpa using hi) with hold | rfl
  · rw [if_neg hold.ne, h i hold, List.getD_append _ _ _ _ hold]
  · simp

/-- A list of bits read most significant first, behind the bits read before it. -/
theorem foldl_bits_eq_bitSum (bits : List Bool) (acc : Nat) :
    bits.foldl (fun acc b => 2 * acc + b.toNat) acc =
      acc * 2 ^ bits.length + bitSum (fun i => bits.getD i false) bits.length := by
  induction bits generalizing acc with
  | nil => simp [bitSum]
  | cons b bits ih =>
    rw [List.foldl_cons, ih, List.length_cons, bitSum_succ]
    simp only [List.getD_cons_zero, List.getD_cons_succ]
    ring

theorem numberOf_eq_bitSum (bits : List Bool) :
    numberOf bits = bitSum (fun i => bits.getD i false) bits.length := by
  rw [numberOf, foldl_bits_eq_bitSum, Nat.zero_mul, Nat.zero_add]

/-- A read of `n` positions inside the bits held answers their number, aligned or not (20_memory.md R43, R47). -/
theorem read_of_holdsBits {m : Memory} {bits : List Bool} {p n : Nat} (h : holdsBits m bits)
    (hin : p + n ≤ bits.length) : m.read p n = .ok (numberOf ((bits.drop p).take n)) := by
  have hlen : ((bits.drop p).take n).length = n := by
    rw [List.length_take, List.length_drop]
    omega
  rw [numberOf_eq_bitSum, hlen]
  refine read_eq_bitSum m fun i hi => ?_
  rw [h (p + i) (by omega), List.getD_eq_getElem?_getD, List.getD_eq_getElem?_getD, List.getElem?_take_of_lt hi,
    List.getElem?_drop]

theorem pack8_of_holdsBits {m : Memory} {bits : List Bool} {start : Nat} (h : holdsBits m bits)
    (hin : start + 8 ≤ bits.length) : m.pack8 start = .ok (windowByte bits start) := by
  rw [pack8_eq_map_read, read_of_holdsBits h hin]
  rfl

/-! ### The three operations (R101 to R103) -/

theorem exec_faClear {len : Nat} (hpos : 1 ≤ len) (hlen : len ≤ 40) (s : State) :
    exec (.faClear len) s = .next (respond ackResponse (startFrame len s)) := by
  have hvalid : ¬(len = 0 ∨ 40 < len) := by omega
  exact congrArg Host.Outcome.next (if_neg hvalid)

theorem exec_faClear_refused {len : Nat} (h : len = 0 ∨ 40 < len) (s : State) :
    exec (.faClear len) s = .next (refuse s) := congrArg Host.Outcome.next (if_pos h)

/-- Settles O22: a length is valid or refused. -/
theorem faClearBeginsAFrame : Obligations.FaClearBeginsAFrame :=
  fun s _ => ⟨fun hpos hlen => exec_faClear hpos hlen s, fun h => exec_faClear_refused h s⟩

theorem exec_faPush {s : State} (b : Bool) (hroom : s.frameWr < s.frameLen) (hlen : s.frameLen ≤ 40) :
    exec (.faPush b) s = .next (respond ackResponse (storeBit s.frameWr b s)) :=
  (if_neg (Nat.not_le.mpr hroom)).trans (if_pos (hroom.trans_le hlen))

theorem exec_faPush_refused {s : State} (b : Bool) (hfull : s.frameLen ≤ s.frameWr) :
    exec (.faPush b) s = .next (refuse s) := if_pos hfull

/-- Settles O23: the one write is at `frame_wr`, which exists because the frame has at most 40 positions. -/
theorem faPushAppendsOneBit : Obligations.FaPushAppendsOneBit := by
  intro s b
  refine ⟨fun hroom hlen => ⟨_, exec_faPush b hroom hlen, rfl, ?_, fun p hp => ?_⟩, exec_faPush_refused b⟩
  · exact (readBit_writeBit _ _ _ b (hroom.trans_le hlen)).trans (if_pos rfl)
  · exact (readBit_writeBit _ _ _ b (hroom.trans_le hlen)).trans (if_neg hp)

theorem packable_iff (start : Nat) (s : State) :
    packable start s = true ↔ 1 ≤ s.frameLen ∧ s.frameWr = s.frameLen ∧ start + 8 ≤ s.frameLen := by
  simp only [packable, fullyPopulated, Bool.and_eq_true, decide_eq_true_iff, and_assoc]

/-- `FA_PACK` presents the byte of a window it may read. -/
theorem exec_faPack {s : State} {start : Nat} {v : Byte} (hp : packable start s = true)
    (hv : s.frame.pack8 start = .ok v) :
    exec (.faPack start) s = .next (respond (dataResponse v.toNat) s) := by
  simp only [exec, execFaPack, hp, hv, if_true]

theorem exec_faPack_refused {s : State} {start : Nat} (h : ¬packable start s = true) :
    exec (.faPack start) s = .next (refuse s) := if_neg h

/-- Settles O24: a window inside a fully populated frame is one that `FA_PACK` may read, and its byte is the weighted
sum. -/
theorem faPackReadsOneWindow : Obligations.FaPackReadsOneWindow := by
  intro s start
  refine ⟨fun b hpos hfull hin hbits => ?_, fun hout => exec_faPack_refused fun hp => ?_⟩
  · obtain ⟨v, hv, hsum⟩ := packWeighsItsBits s.frame start b hbits
    rw [exec_faPack ((packable_iff start s).mpr ⟨hpos, hfull, by omega⟩) hv, hsum]
    rfl
  · obtain ⟨hpos, hfull, hin⟩ := (packable_iff start s).mp hp
    omega

/-! ### A frame filled with pushes -/

theorem execAll_cons {i : Instr} {s t : State} (h : exec i s = .next t) (ops : List Instr) :
    execAll (i :: ops) s = execAll ops t := by
  rw [execAll, h]

/-- A frame of length `len` begun, into which `bits` have been pushed. -/
structure Pushed (len : Nat) (bits : List Bool) (s : State) : Prop where
  len_eq : s.frameLen = len
  wr_eq : s.frameWr = bits.length
  holds : holdsBits s.frame bits

theorem pushed_startFrame (len : Nat) (s : State) : Pushed len [] (respond ackResponse (startFrame len s)) :=
  ⟨rfl, rfl, fun _ h => absurd h (Nat.not_lt_zero _)⟩

theorem Pushed.push {len : Nat} {bits : List Bool} {s : State} (h : Pushed len bits s) (b : Bool)
    (hroom : bits.length < len) (hlen : len ≤ 40) :
    ∃ t, exec (.faPush b) s = .next t ∧ Pushed len (bits ++ [b]) t := by
  obtain ⟨rfl, hwr, hholds⟩ := h
  refine ⟨_, exec_faPush b (hwr ▸ hroom) hlen, rfl, ?_, ?_⟩
  · simp [hwr]
  · rw [respond_frame, storeBit_frame, hwr]
    exact holdsBits_writeBit b hholds (hroom.trans_le hlen)

/-- Pushes with room for all of them, by induction on the bits still to be pushed. -/
theorem Pushed.pushAll {len : Nat} {done rest : List Bool} {s : State} (h : Pushed len done s)
    (hroom : done.length + rest.length ≤ len) (hlen : len ≤ 40) :
    ∃ t, execAll (rest.map .faPush) s = .next t ∧ Pushed len (done ++ rest) t := by
  induction rest generalizing done s with
  | nil => exact ⟨s, rfl, by rwa [List.append_nil]⟩
  | cons b rest ih =>
    rw [List.length_cons] at hroom
    obtain ⟨u, hpush, hu⟩ := h.push b (by omega) hlen
    obtain ⟨t, hrest, ht⟩ := ih hu (by rw [List.length_append, List.length_singleton]; omega)
    rw [List.append_assoc, List.singleton_append] at ht
    exact ⟨t, (execAll_cons hpush _).trans hrest, ht⟩

/-- A frame filled with its bits answers each window of them. -/
theorem Pushed.pack {bits : List Bool} {s : State} (h : Pushed bits.length bits s) {start : Nat}
    (hin : start + 8 ≤ bits.length) :
    exec (.faPack start) s = .next (respond (dataResponse (windowByte bits start).toNat) s) := by
  obtain ⟨hlen, hwr, hholds⟩ := h
  exact exec_faPack ((packable_iff start s).mpr (by omega)) (pack8_of_holdsBits hholds hin)

/-- Settles O27: the frame begins with no bit pushed, each push adds one, and the filled frame answers its windows. -/
theorem pushedFramePacksItsBits : Obligations.PushedFramePacksItsBits := by
  intro s bits hpos hlen
  obtain ⟨t, hrun, ht⟩ := (pushed_startFrame bits.length s).pushAll (rest := bits) (by simp) hlen
  exact ⟨t, (execAll_cons (exec_faClear hpos hlen s) _).trans hrun, ht.len_eq, ht.wr_eq, fun _ hin => ht.pack hin⟩

end Sys2Proof.Proofs
end

section
/-! PROOFS. The steps of the sensor protocol (43_dht11.md): acceptance and reads; the remote protocol left alone; a span
that an acquisition of either protocol measures, its end and its timeout; one poll of a handshake phase and of a bit
cell; and the sum check. -/

namespace Sys2Proof.Proofs

open Sys2Proof Sys2Proof.Machine Sys2Proof.Laws

/-! ### Acceptance and reads (R108 to R110, R117, R118) -/

/-- Settles O28: the acceptance of `DHT_ACQUIRE` is written out in its definition. -/
theorem dhtAcquireIsAccepted : Obligations.DhtAcquireIsAccepted := fun _ => rfl

/-- Settles O34: each read is a response of the unchanged state. -/
theorem dhtReadsWriteNothing : Obligations.DhtReadsWriteNothing := fun _ => ⟨rfl, rfl⟩

/-! ### The remote protocol while `DHT_ACQUIRE` runs (R109) -/

/-- `t` has the registers of the remote protocol of `s`. -/
def keepsRemote (s t : State) : Prop :=
  t.irState = s.irState ∧ t.irOffset = s.irOffset ∧ t.irUnread = s.irUnread ∧ t.irAddr = s.irAddr ∧
    t.irCmd = s.irCmd ∧ t.irEdgeTicks = s.irEdgeTicks

/-- While `dht_state` does not rest, the engine makes a transition of the sensor protocol. -/
theorem move_keepsRemote {s t : State} (h : Move s t) (hd : s.dhtState.resting = false) : keepsRemote s t := by
  have hrunning : ¬s.dhtState.resting = true := by simp [hd]
  cases h with
  | cellHighEnd => rw [dhtNextCell_frame]; exact ⟨rfl, rfl, rfl, rfl, rfl, rfl⟩
  | markTick _ hrests | markEnd _ hrests | markTimeout _ hrests => exact absurd hrests hrunning
  | spaceTick _ hrests | spaceEnd _ hrests | spaceTimeout _ hrests => exact absurd hrests hrunning
  | allOnes _ hrests | overwrite _ hrests | commandGood _ hrests => exact absurd hrests hrunning
  | measureTick hrests | measureEnd hrests | measureTimeout hrests => exact absurd hrests hrunning
  | _ => exact ⟨rfl, rfl, rfl, rfl, rfl, rfl⟩

/-- Settles O36: the step is the engine's, and no transition of the sensor protocol writes the remote one. -/
theorem sensorLeavesRemoteUntouched : Obligations.SensorLeavesRemoteUntouched := by
  intro s t hrst hbusy hd hstep
  rw [step_engine s hrst hbusy] at hstep
  exact move_keepsRemote (engineStep_move s t hstep) hd

/-! ### A span that an acquisition measures (R112, R113, 44_irremote.md R124) -/

/-- The line an acquisition measures. -/
def protocolLine : Protocol → Line
  | .dht => .sensor
  | .ir => .receiver

/-- `Span s p level t`: in `s` the acquisition of `p` measures a span of `level`, and the end of the span in `s` gives
`t`. There is one constructor for each measuring state. -/
inductive Span (s : State) : Protocol → Bool → State → Prop where
  | phase (p : Fin 4) (d : s.dhtState = .await p) :
      Span s .dht (p.val % 2 == 1) (armFull { noResponse s with dhtState := dhtAfterPhase p })
  | separator (n : Fin 40) (d : s.dhtState = .sampleLow n) :
      Span s .dht false (armFull { noResponse s with dhtState := .sampleHigh n })
  | highSpan (n : Fin 40) (d : s.dhtState = .sampleHigh n) :
      Span s .dht true (dhtNextCell n (storeBit n.val (classify s.cnt s.cfg.threshDht) (noResponse s)))
  | mark (n : Fin 32) (d : s.dhtState.resting = true) (i : s.irState = .sampleLow n) :
      Span s .ir false (armFull { noResponse s with irState := .sampleHigh n })
  | space (n : Fin 32) (d : s.dhtState.resting = true) (i : s.irState = .sampleHigh n) :
      Span s .ir true (irNextInterval n (storeBit n.val (classify s.cnt s.cfg.threshIr) (noResponse s)))

/-- In which span the engine is depends on the two state machines only. -/
theorem Span.of_states_eq {s u t : State} {p : Protocol} {level : Bool} (h : Span s p level t)
    (hdht : u.dhtState = s.dhtState) (hir : u.irState = s.irState) : ∃ v, Span u p level v := by
  cases h with
  | phase n d => exact ⟨_, .phase n (hdht.trans d)⟩
  | separator n d => exact ⟨_, .separator n (hdht.trans d)⟩
  | highSpan n d => exact ⟨_, .highSpan n (hdht.trans d)⟩
  | mark n d i => exact ⟨_, .mark n (hdht ▸ d) (hir.trans i)⟩
  | space n d i => exact ⟨_, .space n (hdht ▸ d) (hir.trans i)⟩

/-- What one pass of the engine makes of the poll of a span whose end gives `t`. -/
def afterPoll (p : Protocol) (s t : State) : Poll → State
  | .timedOut => raiseStatus p .timeoutError s
  | .ended _ => t
  | .running => letTickPass s

/-- In a measuring state the engine polls the line of its protocol. -/
theorem Span.engineStep_eq {s t : State} {p : Protocol} {level : Bool} (h : Span s p level t) :
    engineStep s = .next (afterPoll p s t (poll level (protocolLine p) s)) := by
  cases h with
  | phase n d =>
    simp only [engineStep, d, dhtAwait, protocolLine]
    cases poll (n.val % 2 == 1) .sensor s <;> rfl
  | separator n d =>
    simp only [engineStep, d, dhtSampleLow, protocolLine]
    cases poll false .sensor s <;> rfl
  | highSpan n d =>
    simp only [engineStep, d, dhtSampleHigh, protocolLine]
    rcases poll_cases true .sensor s with ⟨e, -⟩ | ⟨e, -⟩ | ⟨e, -⟩ <;> rw [e] <;> rfl
  | mark n d i =>
    simp only [engineStep_eq_irStep d, irStep, i, irSampleLow, protocolLine]
    cases poll false .receiver s <;> rfl
  | space n d i =>
    simp only [engineStep_eq_irStep d, irStep, i, irSampleHigh, protocolLine]
    rcases poll_cases true .receiver s with ⟨e, -⟩ | ⟨e, -⟩ | ⟨e, -⟩ <;> rw [e] <;> rfl

section
variable {s t : State} {p : Protocol} {level : Bool} (h : Span s p level t) (hrst : rstNow s.env = false)
  (hbusy : s.busy = true)
include h hrst hbusy

theorem Span.step_running (hcnt : s.cnt < s.limit) (hline : lineNow s.env (protocolLine p) = level) :
    step s = .next (letTickPass s) := by
  rw [step_engine s hrst hbusy, h.engineStep_eq, poll_running _ _ s hcnt hline]
  rfl

theorem Span.step_ended (hcnt : s.cnt < s.limit) (hline : lineNow s.env (protocolLine p) ≠ level) :
    step s = .next t := by
  rw [step_engine s hrst hbusy, h.engineStep_eq, poll_ended _ _ s hcnt hline]
  rfl

theorem Span.step_timedOut (hcnt : s.limit ≤ s.cnt) : step s = .next (raiseStatus p .timeoutError s) := by
  rw [step_engine s hrst hbusy, h.engineStep_eq, poll_timedOut _ _ s hcnt]
  rfl

end

/-- Settles O48: each measuring state of either protocol measures a span, whose timeout raises the status. -/
theorem timeoutRaisesFailure : Obligations.TimeoutRaisesFailure := by
  intro s hrst hbusy hcnt
  constructor
  · rintro (⟨p, d⟩ | ⟨n, d⟩ | ⟨n, d⟩)
    · exact (Span.phase p d).step_timedOut hrst hbusy hcnt
    · exact (Span.separator n d).step_timedOut hrst hbusy hcnt
    · exact (Span.highSpan n d).step_timedOut hrst hbusy hcnt
  · rintro d (⟨n, i⟩ | ⟨n, i⟩)
    · exact (Span.mark n d i).step_timedOut hrst hbusy hcnt
    · exact (Span.space n d i).step_timedOut hrst hbusy hcnt

/-- Below the bound a tick counts. -/
theorem letTickPass_of_lt {s : State} (h : s.cnt < s.limit) :
    letTickPass s = { s with cnt := s.cnt + 1, rsp := .quiet, env := envAfter 1 s.env } := by
  have hcnt : (if s.cnt < s.limit then s.cnt + 1 else s.cnt) = s.cnt + 1 := if_pos h
  rw [envAfter_one, ← hcnt]
  rfl

/-! ### One poll of a handshake phase (R112) -/

/-- Phases 1 and 3 wait out level 1. -/
theorem phaseLevel_eq : ∀ p : Fin 4, decide (p.val = 1 ∨ p.val = 3) = (p.val % 2 == 1) := by decide

theorem dhtAfterPhase_await : ∀ p q : Fin 4, q.val = p.val + 1 → dhtAfterPhase p = .await q := by decide

theorem dhtAfterPhase_last : ∀ p : Fin 4, p.val = 3 → dhtAfterPhase p = .sampleLow 0 := by decide

/-- Settles O30: the phase is a span, at whose end the state after the phase is armed. -/
theorem dhtPhaseFollowsTheLine : Obligations.DhtPhaseFollowsTheLine := by
  intro s p hrst hbusy hd hcnt
  rw [phaseLevel_eq]
  refine ⟨fun hline => ?_, fun hline => ⟨dhtAfterPhase p, ?_, fun q => dhtAfterPhase_await p q, dhtAfterPhase_last p⟩⟩
  · rw [(Span.phase p hd).step_running hrst hbusy hcnt hline, letTickPass_of_lt hcnt]
    rfl
  · exact (Span.phase p hd).step_ended hrst hbusy hcnt hline

/-! ### One poll of a bit cell (R113) -/

/-- Settles O31: separator and high span are spans; the end of the high span stores the bit. -/
theorem dhtCellStoresItsBit : Obligations.DhtCellStoresItsBit := by
  intro s n hrst hbusy hcnt
  have hread (b : Bool) (p : Nat) := readBit_writeBit s.frame n.val p b n.isLt
  refine ⟨fun hholds => ?_, fun hd hline => ?_, fun hd hline => ?_⟩
  · have htick : step s = .next (letTickPass s) := by
      rcases hholds with ⟨hd, hline⟩ | ⟨hd, hline⟩
      · exact (Span.separator n hd).step_running hrst hbusy hcnt hline
      · exact (Span.highSpan n hd).step_running hrst hbusy hcnt hline
    rw [htick, letTickPass_of_lt hcnt]
    rfl
  · exact (Span.separator n hd).step_ended hrst hbusy hcnt (by simp [protocolLine, hline])
  · refine ⟨_, (Span.highSpan n hd).step_ended hrst hbusy hcnt (by simp [protocolLine, hline]), ?_⟩
    obtain ⟨hn, e⟩ | ⟨hn, e⟩ := dhtNextCell_cases n
        (storeBit n.val (classify s.cnt s.cfg.threshDht) (noResponse s)) <;> rw [e]
    · refine ⟨rfl, (hread _ _).trans (if_pos rfl), fun p hp => (hread _ _).trans (if_neg hp), fun m hm => ?_, ?_⟩
      · exact ⟨congrArg DhtState.sampleLow (Fin.ext hm.symm), rfl, rfl⟩
      · omega
    · refine ⟨rfl, (hread _ _).trans (if_pos rfl), fun p hp => (hread _ _).trans (if_neg hp), fun m hm => ?_, ?_⟩
      · omega
      · exact fun _ => ⟨rfl, rfl, rfl⟩

/-! ### The sum check (R114 to R116) -/

theorem sensorPacket_of_windows {m : Memory} {hum temp par : Byte} (h0 : m.pack8 0 = .ok hum)
    (h16 : m.pack8 16 = .ok temp) (h32 : m.pack8 32 = .ok par) : m.sensorPacket = .ok ⟨hum, temp, par⟩ := by
  simp only [Memory.sensorPacket, h0, h16, h32]

theorem step_dhtValidating {s : State} {k : SensorPacket} (hrst : rstNow s.env = false) (hbusy : s.busy = true)
    (hd : s.dhtState = .validating) (hk : s.frame.sensorPacket = .ok k) :
    step s = .next (if k.temp + k.hum = k.par then dhtDone k s else raiseStatus .dht .checksumError s) := by
  simp only [step_engine s hrst hbusy, engineStep, hd, dhtValidate, hk]

/-- The sum of two bytes drops its carry. -/
theorem add_eq_iff_toNat_mod (a b c : Byte) : a + b = c ↔ (a.toNat + b.toNat) % 256 = c.toNat := by
  rw [← BitVec.toNat_inj, BitVec.toNat_add]

/-- Settles O32: the packet is that of the three windows, and the sum check is that of the numbers. -/
theorem dhtValidationChecksTheSum : Obligations.DhtValidationChecksTheSum := by
  intro s hum temp par hrst hbusy hd h0 h16 h32
  have hcarry := add_eq_iff_toNat_mod temp hum par
  rw [step_dhtValidating hrst hbusy hd (sensorPacket_of_windows h0 h16 h32)]
  refine ⟨fun hsum => ?_, fun hsum => ?_⟩
  · exact congrArg Host.Outcome.next (if_pos (hcarry.mpr hsum))
  · exact congrArg Host.Outcome.next (if_neg (mt hcarry.mp hsum))

end Sys2Proof.Proofs
end

section
/-! PROOFS. `DHT_ACQUIRE` as a whole (43_dht11.md R108 to R116): runs of a waiting engine, the start signal, a span of
listed levels, the handshake, the 40 bit cells, and the decoded frame. -/

namespace Sys2Proof.Proofs

open Sys2Proof Sys2Proof.Machine Sys2Proof.Laws

/-! ### Runs of a waiting engine -/

theorem runSteps_add {m : Nat} {s t : State} (h : runSteps m s = .next t) (n : Nat) :
    runSteps (m + n) s = runSteps n t := by
  induction m generalizing s with
  | zero =>
    cases h
    rw [Nat.zero_add]
  | succ m ih =>
    rw [Nat.succ_add]
    cases hs : step s with
    | next v =>
      rw [runSteps_succ hs] at h ⊢
      exact ih h
    | fault f => rw [runSteps, hs] at h; cases h
    | refused r => rw [runSteps, hs] at h; cases h

/-- The engine runs, presents nothing, and will not be reset. -/
structure EngineRuns (s : State) : Prop where
  busy_eq : s.busy = true
  noReset : noReset s.env
  quiet : s.rsp = .quiet

theorem EngineRuns.rstNow_eq {s : State} (h : EngineRuns s) : rstNow s.env = false := rstNow_of_noReset h.noReset

theorem EngineRuns.stateAfter {s : State} (h : EngineRuns s) (n : Nat) : EngineRuns (stateAfter n s) :=
  ⟨h.busy_eq, noReset_envAfter h.noReset n, h.quiet⟩

/-- The engine waits through `n` ticks if each step lets a tick pass, by induction on `n`. -/
theorem EngineRuns.runSteps_waits {s : State} {n : Nat} (h : EngineRuns s)
    (hwaits : ∀ k, k < n → step (Machine.stateAfter k s) = .next (letTickPass (Machine.stateAfter k s))) :
    runSteps n s = .next (Machine.stateAfter n s) := by
  induction n with
  | zero => rw [← iterate_tick]; rfl
  | succ n ih =>
    have hrun := ih fun k hk => hwaits k (by omega)
    rw [runSteps_snoc hrun (hwaits n (Nat.lt_succ_self n)), letTickPass_of_quiet (h.stateAfter n).quiet,
      tick_stateAfter]

/-- Before the last of the ticks left to the bound, the bound is not reached. -/
theorem stateAfter_cnt_lt {s : State} {n : Nat} (h : n < s.limit - s.cnt) :
    (stateAfter n s).cnt < (stateAfter n s).limit := by
  change countAfter n s < s.limit
  rw [countAfter_of_le h.le]
  omega

/-- After the ticks left to the bound, it is reached. -/
theorem stateAfter_limit_le_cnt (s : State) :
    (stateAfter (s.limit - s.cnt) s).limit ≤ (stateAfter (s.limit - s.cnt) s).cnt := by
  change s.limit ≤ countAfter (s.limit - s.cnt) s
  rw [countAfter_of_le le_rfl]
  omega

theorem envAfter_envAfter (m n : Nat) (e : Env) : envAfter m (envAfter n e) = envAfter (n + m) e := by
  simp only [envAfter, List.drop_drop, Nat.add_assoc]

/-! ### The start signal (R110 to R112) -/

/-- `Delay s t`: in `s` the engine times a window of the start signal, and its end in `s` gives `t`. -/
inductive Delay (s : State) : State → Prop where
  | low (d : s.dhtState = .startLow) :
      Delay s (startCount s.cfg.tStartHigh { noResponse s with dhtState := .startHigh, dhtOut := true })
  | high (d : s.dhtState = .startHigh) :
      Delay s (armFull (startFrame 40 { noResponse s with dhtOe := false, dhtState := .await 0 }))

/-- Which window the engine times depends on `dht_state` only. -/
theorem Delay.of_dhtState_eq {s t u : State} (h : Delay s t) (hdht : u.dhtState = s.dhtState) :
    ∃ v, Delay u v := by
  cases h with
  | low d => exact ⟨_, .low (hdht.trans d)⟩
  | high d => exact ⟨_, .high (hdht.trans d)⟩

/-- A window of the start signal reads the counter only. -/
theorem Delay.step_eq {s t : State} (h : Delay s t) (hs : EngineRuns s) :
    step s = .next (if expired s then t else letTickPass s) := by
  cases h with
  | low d => exact step_startLow hs.rstNow_eq hs.busy_eq d
  | high d => exact step_startHigh hs.rstNow_eq hs.busy_eq d

theorem Delay.step_running {s t : State} (h : Delay s t) (hs : EngineRuns s) (hcnt : s.cnt < s.limit) :
    step s = .next (letTickPass s) := by
  rw [h.step_eq hs, if_neg (by simpa [expired] using hcnt)]

theorem Delay.step_ended {s t : State} (h : Delay s t) (hs : EngineRuns s) (hcnt : s.limit ≤ s.cnt) :
    step s = .next t := by
  rw [h.step_eq hs, if_pos (by simpa [expired] using hcnt)]

/-- Within its window a delay lets ticks pass. -/
theorem Delay.runSteps_waits {s t : State} {n : Nat} (h : Delay s t) (hs : EngineRuns s)
    (hn : n ≤ s.limit - s.cnt) : runSteps n s = .next (stateAfter n s) :=
  hs.runSteps_waits fun k hk => by
    obtain ⟨v, hv⟩ := h.of_dhtState_eq (u := stateAfter k s) rfl
    exact hv.step_running (hs.stateAfter k) (stateAfter_cnt_lt (hk.trans_le hn))

/-- The window ends with one transition of no tick. -/
theorem Delay.runSteps_ended {s t : State} {n : Nat} (hn : n = s.limit - s.cnt) (h : Delay (stateAfter n s) t)
    (hs : EngineRuns s) : runSteps (n + 1) s = .next t := by
  obtain ⟨v, hv⟩ := h.of_dhtState_eq (u := s) rfl
  refine runSteps_snoc (hv.runSteps_waits hs hn.le) (h.step_ended (hs.stateAfter n) ?_)
  rw [hn]
  exact stateAfter_limit_le_cnt s

/-- The state in which `DHT_ACQUIRE`, accepted in `s`, drives the line low. -/
def lowWindow (s : State) : State :=
  { s with
    busy := true, dhtState := .startLow, dhtOe := true, dhtOut := false
    cnt := 0, limit := s.cfg.tStartLow, rsp := .quiet }

/-- The state in which it begins to drive the line high. -/
def highWindow (s : State) : State :=
  { s with
    busy := true, dhtState := .startHigh, dhtOe := true, dhtOut := true
    cnt := 0, limit := s.cfg.tStartHigh, rsp := .quiet, env := envAfter s.cfg.tStartLow s.env }

/-- The state in which the start signal is over: a frame of 40 is begun and handshake phase 0 is armed. -/
def handshakeArmed (s : State) : State :=
  { s with
    busy := true, dhtState := .await 0, dhtOe := false, dhtOut := true, frameLen := 40, frameWr := 0
    cnt := 0, limit := s.cfg.maxTicks, rsp := .quiet
    env := envAfter s.cfg.tStartHigh (envAfter s.cfg.tStartLow s.env) }

theorem exec_dhtAcquire (s : State) : exec .dhtAcquire s = .next (lowWindow s) := rfl

section
variable {s : State} (hrst : noReset s.env)
include hrst

theorem engineRuns_lowWindow : EngineRuns (lowWindow s) := ⟨rfl, hrst, rfl⟩

theorem engineRuns_highWindow : EngineRuns (highWindow s) := ⟨rfl, noReset_envAfter hrst _, rfl⟩

theorem runSteps_lowWindow {k : Nat} (hk : k ≤ s.cfg.tStartLow) :
    runSteps k (lowWindow s) = .next (stateAfter k (lowWindow s)) :=
  (Delay.low (s := lowWindow s) rfl).runSteps_waits (engineRuns_lowWindow hrst) hk

theorem runSteps_highWindow {k : Nat} (hk : k ≤ s.cfg.tStartHigh) :
    runSteps (s.cfg.tStartLow + 1 + k) (lowWindow s) = .next (stateAfter k (highWindow s)) := by
  have hlow : runSteps (s.cfg.tStartLow + 1) (lowWindow s) = .next (highWindow s) :=
    Delay.runSteps_ended rfl (.low rfl) (engineRuns_lowWindow hrst)
  rw [runSteps_add hlow]
  exact (Delay.high (s := highWindow s) rfl).runSteps_waits (engineRuns_highWindow hrst) hk

theorem runSteps_handshakeArmed :
    runSteps (s.cfg.tStartLow + 1 + s.cfg.tStartHigh + 1) (lowWindow s) = .next (handshakeArmed s) := by
  have hwindow : (highWindow s).limit ≤ (stateAfter s.cfg.tStartHigh (highWindow s)).cnt :=
    stateAfter_limit_le_cnt (highWindow s)
  exact runSteps_snoc (runSteps_highWindow hrst le_rfl)
    ((Delay.high rfl).step_ended ((engineRuns_highWindow hrst).stateAfter _) hwindow)

end

/-- Settles O29: the states of the two windows and the state after them, with their step counts. -/
theorem dhtStartWindowsDriveTheLine : Obligations.DhtStartWindowsDriveTheLine := by
  intro s t hrst hexec
  cases hexec
  exact ⟨fun k hk => ⟨_, runSteps_lowWindow hrst hk, rfl, rfl, rfl, rfl⟩,
    fun k hk => ⟨_, runSteps_highWindow hrst hk, rfl, rfl, rfl, rfl⟩,
    _, runSteps_handshakeArmed hrst, rfl, rfl, rfl, rfl, rfl, rfl, rfl⟩

/-! ### A span of listed levels (R87, R113) -/

/-- The listed levels of a line from the current tick on. -/
def waveOf (e : Env) : Line → List Bool
  | .sensor => e.dhtWave
  | .receiver => e.irWave

theorem lineAhead_eq_getD (e : Env) (sel : Line) (i : Nat) :
    lineAhead e sel i = (waveOf e sel).getD i (Config.line sel (e.clock + i)) := by
  cases sel <;> rfl

theorem head?_replicate_append {level : Bool} {n : Nat} {rest : List Bool} (hn : 1 ≤ n) :
    (List.replicate n level ++ rest).head? = some level := by
  obtain ⟨k, rfl⟩ := Nat.exists_eq_add_of_le' hn
  rfl

/-- A level listed `n` times, and then the other one, is a run of `n`. -/
theorem isRun_of_wave {e : Env} {sel : Line} {level : Bool} {n : Nat} {rest : List Bool}
    (hwave : waveOf e sel = List.replicate n level ++ rest) (hrest : rest.head? = some (!level)) :
    isRun e sel level n := by
  have hlen : (List.replicate n level).length = n := List.length_replicate
  constructor
  · intro i hi
    rw [lineAhead_eq_getD, hwave, List.getD_append _ _ _ _ (hlen.symm ▸ hi), List.getD_replicate _ hi]
  · rw [lineAhead_eq_getD, hwave, List.getD_append_right _ _ _ _ hlen.le, hlen, Nat.sub_self,
      List.getD_eq_getElem?_getD, ← List.head?_eq_getElem?, hrest]
    cases level <;> simp

/-- A span that ends before the bound is measured, and the transition at its end takes no tick. -/
theorem Span.runSteps_ended {s t : State} {p : Protocol} {level : Bool} {n : Nat}
    (h : Span (stateAfter n s) p level t) (hs : EngineRuns s) (hn : n < s.limit - s.cnt)
    (hrun : isRun s.env (protocolLine p) level n) : runSteps (n + 1) s = .next t := by
  obtain ⟨hholds, hend⟩ := hrun
  have hwait : runSteps n s = .next (stateAfter n s) := hs.runSteps_waits fun k hk => by
    obtain ⟨v, hv⟩ := h.of_states_eq (u := stateAfter k s) rfl rfl
    exact hv.step_running (hs.stateAfter k).rstNow_eq hs.busy_eq (stateAfter_cnt_lt (hk.trans hn))
      ((lineNow_envAfter s.env _ k).trans (hholds k hk))
  rw [← lineNow_envAfter] at hend
  exact runSteps_snoc hwait (h.step_ended (hs.stateAfter n).rstNow_eq hs.busy_eq (stateAfter_cnt_lt hn) hend)

/-! ### Runs that lead to a property -/

/-- From `s` some run leads to a state of `P`. -/
def Leads (s : State) (P : State → Prop) : Prop := ∃ n u, runSteps n s = .next u ∧ P u

theorem leads_of_run {s u : State} {P : State → Prop} {n : Nat} (h : runSteps n s = .next u) (hu : P u) : Leads s P :=
  ⟨n, u, h, hu⟩

theorem leads_self {s : State} {P : State → Prop} (h : P s) : Leads s P := leads_of_run (n := 0) rfl h

theorem Leads.trans {s : State} {P Q : State → Prop} (h : Leads s P) (hnext : ∀ u, P u → Leads u Q) : Leads s Q := by
  obtain ⟨m, u, hm, hu⟩ := h
  obtain ⟨n, v, hn, hv⟩ := hnext u hu
  exact leads_of_run ((runSteps_add hm n).trans hn) hv

/-! ### `DHT_ACQUIRE` on the way through a pulse train -/

/-- In `v` the acquisition begun in `s` is in `d`, `ticks` ticks after its beginning: the positions of the frame hold
`bits`, the line lists `wave` from here on, and the stored bytes are those of `s`. -/
structure Decoding (s : State) (d : DhtState) (bits : List Bool) (ticks : Nat) (wave : List Bool) (v : State) :
    Prop where
  runs : EngineRuns v
  dhtState_eq : v.dhtState = d
  cfg_eq : v.cfg = s.cfg
  bytes : keepsSensorBytes s v
  senses : sensing v
  limit_eq : v.limit = s.cfg.maxTicks
  holds : holdsBits v.frame bits
  now_eq : v.env.now = s.env.now + ticks
  wave_eq : v.env.dhtWave = wave

/-- The engine is in `d` with its counter just armed. -/
structure AtSpan (s : State) (d : DhtState) (bits : List Bool) (ticks : Nat) (wave : List Bool) (v : State) : Prop
    extends Decoding s d bits ticks wave v where
  cnt_eq : v.cnt = 0

section
variable {s v : State} {d : DhtState} {bits : List Bool} {ticks : Nat} {wave : List Bool}

theorem Decoding.stateAfter {n : Nat} {level : Bool}
    (h : Decoding s d bits ticks (List.replicate n level ++ wave) v) :
    Decoding s d bits (ticks + n) wave (stateAfter n v) :=
  { h with
    runs := h.runs.stateAfter n
    now_eq := by
      change v.env.now + n = _
      rw [h.now_eq, Nat.add_assoc]
    wave_eq := by
      change v.env.dhtWave.drop n = _
      rw [h.wave_eq, List.drop_left' List.length_replicate] }

theorem Decoding.noResponse (h : Decoding s d bits ticks wave v) : Decoding s d bits ticks wave (noResponse v) :=
  { h with runs := { h.runs with quiet := rfl } }

/-- The next span is armed in no tick. -/
theorem Decoding.arm (h : Decoding s d bits ticks wave v) (d' : DhtState) :
    AtSpan s d' bits ticks wave (armFull { v with dhtState := d' }) :=
  { h with
    runs := { h.runs with }
    dhtState_eq := rfl
    limit_eq := congrArg Config.maxTicks h.cfg_eq
    cnt_eq := rfl }

theorem Decoding.store (h : Decoding s d bits ticks wave v) (b : Bool) (hroom : bits.length < 40) :
    Decoding s d (bits ++ [b]) ticks wave (storeBit bits.length b v) :=
  { h with
    runs := { h.runs with }
    holds := holdsBits_writeBit b h.holds hroom }

/-- A span shorter than full scale is measured to its end. -/
theorem AtSpan.runSteps_ended {n : Nat} {level : Bool} {t : State}
    (h : AtSpan s d bits ticks (List.replicate n level ++ wave) v) (hspan : Span (Machine.stateAfter n v) .dht level t)
    (hn : n < s.cfg.maxTicks) (hwave : wave.head? = some (!level)) : runSteps (n + 1) v = .next t :=
  hspan.runSteps_ended h.runs (by rwa [h.limit_eq, h.cnt_eq]) (isRun_of_wave h.wave_eq hwave)

/-- A handshake phase is waited out (R112). -/
theorem AtSpan.phase {p : Fin 4} {n : Nat} {level : Bool}
    (h : AtSpan s (.await p) bits ticks (List.replicate n level ++ wave) v) (hlevel : (p.val % 2 == 1) = level)
    (hn : n < s.cfg.maxTicks) (hwave : wave.head? = some (!level)) :
    Leads v (AtSpan s (dhtAfterPhase p) bits (ticks + n) wave) := by
  subst hlevel
  have hafter := h.toDecoding.stateAfter
  exact leads_of_run (h.runSteps_ended (.phase p hafter.dhtState_eq) hn hwave) (hafter.noResponse.arm _)

/-- A separator is waited out and its count discarded (R113). -/
theorem AtSpan.separator {i : Fin 40} {n : Nat}
    (h : AtSpan s (.sampleLow i) bits ticks (List.replicate n false ++ wave) v)
    (hn : n < s.cfg.maxTicks) (hwave : wave.head? = some true) :
    Leads v (AtSpan s (.sampleHigh i) bits (ticks + n) wave) := by
  have hafter := h.toDecoding.stateAfter
  exact leads_of_run (h.runSteps_ended (.separator i hafter.dhtState_eq) hn hwave) (hafter.noResponse.arm _)

end

/-- The value of `dht_state` with `n` bits stored (R107). -/
def cellState (n : Nat) : DhtState := if h : n < 40 then .sampleLow ⟨n, h⟩ else .validating

/-- `bits` are stored, and the engine measures the next cell or, with 40 bits, validates. -/
structure AtCell (s : State) (bits : List Bool) (ticks : Nat) (wave : List Bool) (v : State) : Prop
    extends Decoding s (cellState bits.length) bits ticks wave v where
  cnt_eq : bits.length < 40 → v.cnt = 0

section
variable {s v : State} {d : DhtState} {bits : List Bool} {ticks : Nat} {wave : List Bool}

theorem AtSpan.atCell (h : AtSpan s (.sampleLow 0) [] ticks wave v) : AtCell s [] ticks wave v :=
  { h with cnt_eq := fun _ => h.cnt_eq }

theorem AtCell.atSpan (h : AtCell s bits ticks wave v) (hroom : bits.length < 40) :
    AtSpan s (.sampleLow ⟨bits.length, hroom⟩) bits ticks wave v :=
  { h with
    dhtState_eq := h.dhtState_eq.trans (dif_pos hroom)
    cnt_eq := h.cnt_eq hroom }

theorem AtCell.validating (h : AtCell s bits ticks wave v) (hlen : bits.length = 40) :
    Decoding s .validating bits ticks wave v :=
  { h with dhtState_eq := h.dhtState_eq.trans (dif_neg (by omega)) }

/-- With the bit of cell `i` stored, the next cell is armed or the frame is validated. -/
theorem Decoding.nextCell {i : Fin 40} (h : Decoding s d bits ticks wave v) (hi : i.val + 1 = bits.length) :
    AtCell s bits ticks wave (dhtNextCell i v) := by
  obtain ⟨hn, e⟩ | ⟨hn, e⟩ := dhtNextCell_cases i v <;> rw [e]
  · have hstate : cellState bits.length = .sampleLow ⟨i.val + 1, hn⟩ := by
      rw [← hi]
      exact dif_pos hn
    have harmed := h.arm (.sampleLow ⟨i.val + 1, hn⟩)
    exact { harmed with
      dhtState_eq := hstate.symm
      cnt_eq := fun _ => rfl }
  · have hstate : cellState bits.length = .validating := by
      rw [← hi]
      exact dif_neg (by omega)
    exact { h with
      runs := { h.runs with }
      dhtState_eq := hstate.symm
      cnt_eq := fun hlt => absurd hlt (by omega) }

/-- The high span of a cell is measured, and its bit is stored behind the others (R113). -/
theorem AtSpan.highSpan {n : Nat} (hroom : bits.length < 40)
    (h : AtSpan s (.sampleHigh ⟨bits.length, hroom⟩) bits ticks (List.replicate n true ++ wave) v)
    (hn : n < s.cfg.maxTicks) (hwave : wave.head? = some false) :
    Leads v (AtCell s (bits ++ [decide (s.cfg.threshDht < n)]) (ticks + n) wave) := by
  have hafter := h.toDecoding.stateAfter
  have hcnt : (stateAfter n v).cnt = n := by
    change countAfter n v = n
    rw [countAfter_of_le (by rw [h.limit_eq, h.cnt_eq]; exact hn.le), h.cnt_eq, Nat.zero_add]
  refine leads_of_run (h.runSteps_ended (.highSpan _ hafter.dhtState_eq) hn hwave) ?_
  rw [hcnt, hafter.cfg_eq]
  exact (hafter.noResponse.store _ hroom).nextCell (by rw [List.length_append, List.length_singleton])

/-- A bit cell: its two spans last their ticks and leave its bit (R113). -/
theorem AtCell.cell {lo hi : Nat} (hroom : bits.length < 40)
    (h : AtCell s bits ticks (List.replicate lo false ++ (List.replicate hi true ++ wave)) v)
    (hlo : lo < s.cfg.maxTicks) (hpos : 1 ≤ hi) (hhi : hi < s.cfg.maxTicks) (hwave : wave.head? = some false) :
    Leads v (AtCell s (bits ++ [decide (s.cfg.threshDht < hi)]) (ticks + (lo + hi)) wave) := by
  rw [← Nat.add_assoc]
  exact ((h.atSpan hroom).separator hlo (head?_replicate_append hpos)).trans fun u hu => hu.highSpan hroom hhi hwave

end

/-! ### A pulse train -/

/-- Each half of a cell has a length and is shorter than full scale. -/
def measurable (c : Config) (cell : Nat × Nat) : Prop :=
  1 ≤ cell.1 ∧ cell.1 < c.maxTicks ∧ 1 ≤ cell.2 ∧ cell.2 < c.maxTicks

theorem trainLevels_cons_append (c : Nat × Nat) (cells : List (Nat × Nat)) (wave : List Bool) :
    trainLevels (c :: cells) ++ wave =
      List.replicate c.1 false ++ (List.replicate c.2 true ++ (trainLevels cells ++ wave)) := by
  simp only [trainLevels, List.flatMap_cons, intervalLevels, List.append_assoc]

theorem trainTicks_nil : trainTicks [] = 0 := rfl

theorem trainTicks_cons (c : Nat × Nat) (cells : List (Nat × Nat)) :
    trainTicks (c :: cells) = c.1 + c.2 + trainTicks cells := by
  rw [trainTicks, List.map_cons, List.sum_cons]
  rfl

theorem trainTicks_append (front back : List (Nat × Nat)) :
    trainTicks (front ++ back) = trainTicks front + trainTicks back := by
  rw [trainTicks, List.map_append, List.sum_append]
  rfl

/-- A train of measurable cells that the line ends at level 0 begins at level 0. -/
theorem head?_trainLevels_append {c : Config} {cells : List (Nat × Nat)} {wave : List Bool}
    (hcells : ∀ cell ∈ cells, measurable c cell) (hwave : wave.head? = some false) :
    (trainLevels cells ++ wave).head? = some false := by
  cases cells with
  | nil => exact hwave
  | cons cell cells =>
    obtain ⟨hpos, -⟩ := hcells cell List.mem_cons_self
    rw [trainLevels_cons_append]
    exact head?_replicate_append hpos

/-- The handshake is four phases, of which phase 0 may have no length (R112). -/
theorem AtSpan.handshake {s v : State} {ticks h0 h1 h2 h3 : Nat} {wave : List Bool}
    (h : AtSpan s (.await 0) [] ticks (trainLevels [(h0, h1), (h2, h3)] ++ wave) v) (hlow : h0 < s.cfg.maxTicks)
    (hpos : 1 ≤ h1) (hhigh : h1 < s.cfg.maxTicks) (hpair : measurable s.cfg (h2, h3))
    (hwave : wave.head? = some false) :
    Leads v (AtCell s [] (ticks + trainTicks [(h0, h1), (h2, h3)]) wave) := by
  obtain ⟨hpos2, hlow2, hpos3, hhigh2⟩ := hpair
  rw [trainLevels_cons_append, trainLevels_cons_append] at h
  refine (h.phase rfl hlow (head?_replicate_append hpos)).trans fun u1 hu1 => ?_
  refine (hu1.phase (p := 1) rfl hhigh (head?_replicate_append hpos2)).trans fun u2 hu2 => ?_
  refine (hu2.phase (p := 2) rfl hlow2 (head?_replicate_append hpos3)).trans fun u3 hu3 => ?_
  refine (hu3.phase (p := 3) rfl hhigh2 hwave).trans fun u4 hu4 => leads_self ?_
  have hticks : ticks + trainTicks [(h0, h1), (h2, h3)] = ticks + h0 + h1 + h2 + h3 := by
    rw [trainTicks_cons, trainTicks_cons, trainTicks_nil]
    omega
  rw [hticks]
  exact hu4.atCell

/-- The cells are decoded one after the other, by induction on those still to come (R113). -/
theorem AtCell.train {s v : State} {bits : List Bool} {ticks : Nat} {wave : List Bool} {cells : List (Nat × Nat)}
    (h : AtCell s bits ticks (trainLevels cells ++ wave) v) (hlen : bits.length + cells.length = 40)
    (hcells : ∀ cell ∈ cells, measurable s.cfg cell) (hwave : wave.head? = some false) :
    Leads v (AtCell s (bits ++ trainBits s.cfg.threshDht cells) (ticks + trainTicks cells) wave) := by
  induction cells generalizing bits ticks v with
  | nil => exact leads_self (by simpa [trainLevels, trainBits, trainTicks] using h)
  | cons cell cells ih =>
    obtain ⟨-, hlow, hpos, hhigh⟩ := hcells cell List.mem_cons_self
    have hrest : ∀ c ∈ cells, measurable s.cfg c := fun c hc => hcells c (List.mem_cons_of_mem _ hc)
    rw [List.length_cons] at hlen
    rw [trainLevels_cons_append] at h
    refine (h.cell (by omega) hlow hpos hhigh (head?_trainLevels_append hrest hwave)).trans fun u hu => ?_
    have hnext := ih hu (by rw [List.length_append, List.length_singleton]; omega) hrest
    rwa [List.append_assoc, List.singleton_append, Nat.add_assoc, ← trainTicks_cons] at hnext

/-! ### The decoded frame (R114 to R116) -/

/-- The packet of a frame that holds `bits` (20_memory.md R45). -/
def packetOf (bits : List Bool) : SensorPacket := ⟨windowByte bits 0, windowByte bits 16, windowByte bits 32⟩

theorem sensorPacket_of_holdsBits {m : Memory} {bits : List Bool} (h : holdsBits m bits) (hlen : bits.length = 40) :
    m.sensorPacket = .ok (packetOf bits) :=
  sensorPacket_of_windows (pack8_of_holdsBits h (by omega)) (pack8_of_holdsBits h (by omega))
    (pack8_of_holdsBits h (by omega))

/-- In `u` the acquisition begun in `s` has returned after `ticks` ticks with the decoded `bits`: `Ok` and their bytes
stored, or `ChecksumError` and the bytes of `s`, by the sum of the bytes (R115, R116). -/
def Acquired (s : State) (bits : List Bool) (ticks : Nat) (u : State) : Prop :=
  u.busy = false ∧ u.env.now = s.env.now + ticks ∧ u.frameLen = 0 ∧ u.frameWr = 0 ∧ u.dhtOe = false ∧
    u.dhtOut = true ∧ u.limit = s.cfg.maxTicks ∧
    (windowByte bits 16 + windowByte bits 0 = windowByte bits 32 →
      u.dhtState = .done ∧ u.rsp = ⟨true, 0, false, .ok, false⟩ ∧ u.dhtHum = windowByte bits 0 ∧
        u.dhtTemp = windowByte bits 16 ∧ u.dhtPar = windowByte bits 32) ∧
    (windowByte bits 16 + windowByte bits 0 ≠ windowByte bits 32 →
      u.dhtState = .failed ∧ u.rsp = ⟨true, 0, false, .checksumError, false⟩ ∧ u.dhtHum = s.dhtHum ∧
        u.dhtTemp = s.dhtTemp ∧ u.dhtPar = s.dhtPar)

section
variable {s v : State} {bits : List Bool} {ticks : Nat} {wave : List Bool}
  (h : Decoding s .validating bits ticks wave v)
include h

theorem Decoding.acquired_done (hsum : windowByte bits 16 + windowByte bits 0 = windowByte bits 32) :
    Acquired s bits ticks (dhtDone (packetOf bits) v) := by
  obtain ⟨hoe, hout⟩ := h.senses
  exact ⟨rfl, h.now_eq, rfl, rfl, hoe, hout, h.limit_eq, fun _ => ⟨rfl, rfl, rfl, rfl, rfl⟩,
    fun hne => absurd hsum hne⟩

theorem Decoding.acquired_failed (hsum : windowByte bits 16 + windowByte bits 0 ≠ windowByte bits 32) :
    Acquired s bits ticks (raiseStatus .dht .checksumError v) := by
  obtain ⟨hoe, hout⟩ := h.senses
  exact ⟨rfl, h.now_eq, rfl, rfl, hoe, hout, h.limit_eq, fun heq => absurd heq hsum,
    fun _ => ⟨rfl, rfl, h.bytes⟩⟩

/-- With 40 bits decoded the sum check returns the operation. -/
theorem Decoding.validate (hlen : bits.length = 40) : Leads v (Acquired s bits ticks) := by
  have hstep := step_dhtValidating h.runs.rstNow_eq h.runs.busy_eq h.dhtState_eq
    (sensorPacket_of_holdsBits h.holds hlen)
  refine leads_of_run (runSteps_snoc (n := 0) rfl hstep) ?_
  split_ifs with hsum
  · exact h.acquired_done hsum
  · exact h.acquired_failed hsum

end

/-! ### The whole of `DHT_ACQUIRE` -/

theorem handshakeArmed_env (s : State) :
    (handshakeArmed s).env = envAfter (s.cfg.tStartLow + s.cfg.tStartHigh) s.env := envAfter_envAfter _ _ _

theorem engineRuns_handshakeArmed {s : State} (hrst : noReset s.env) : EngineRuns (handshakeArmed s) where
  busy_eq := rfl
  noReset := by
    rw [handshakeArmed_env]
    exact noReset_envAfter hrst _
  quiet := rfl

/-- The start signal leads to phase 0, whatever the line does in it (R111, R112). -/
theorem leads_handshake {s : State} {pre wave : List Bool} (hrst : noReset s.env)
    (hpre : pre.length = s.cfg.tStartLow + s.cfg.tStartHigh) (hwave : s.env.dhtWave = pre ++ wave) :
    Leads (lowWindow s) (AtSpan s (.await 0) [] (s.cfg.tStartLow + s.cfg.tStartHigh) wave) :=
  leads_of_run (runSteps_handshakeArmed hrst)
    { runs := engineRuns_handshakeArmed hrst
      dhtState_eq := rfl
      cfg_eq := rfl
      bytes := ⟨rfl, rfl, rfl⟩
      senses := ⟨rfl, rfl⟩
      limit_eq := rfl
      holds := fun _ hi => absurd hi (Nat.not_lt_zero _)
      now_eq := congrArg Env.now (handshakeArmed_env s)
      wave_eq := by
        rw [handshakeArmed_env]
        exact (congrArg _ hwave).trans (List.drop_left' hpre)
      cnt_eq := rfl }

/-- Settles O33: start signal, handshake, cells and sum check, one after the other. -/
theorem dhtAcquireDecodesPulseTrain : Obligations.DhtAcquireDecodesPulseTrain := by
  intro s t h0 h1 h2 h3 cells pre rest hrst hpre hlow hpos hhigh hpos2 hlow2 hpos3 hhigh2 hlen hcells hwave hexec
  rw [exec_dhtAcquire, Host.Outcome.next.injEq] at hexec
  subst hexec
  have htrain : (h0, h1) :: (h2, h3) :: cells = [(h0, h1), (h2, h3)] ++ cells := rfl
  have hend : (false :: rest).head? = some false := rfl
  have hbits : (trainBits s.cfg.threshDht cells).length = 40 := by rw [trainBits, List.length_map, hlen]
  rw [htrain, trainLevels, List.flatMap_append, List.append_assoc] at hwave
  have hdecoded : Leads (lowWindow s) (Acquired s (trainBits s.cfg.threshDht cells)
      (s.cfg.tStartLow + s.cfg.tStartHigh + trainTicks [(h0, h1), (h2, h3)] + trainTicks cells)) := by
    refine (leads_handshake hrst hpre hwave).trans fun u1 hu1 => ?_
    refine (hu1.handshake hlow hpos hhigh ⟨hpos2, hlow2, hpos3, hhigh2⟩
      (head?_trainLevels_append hcells hend)).trans fun u2 hu2 => ?_
    exact (hu2.train (by simpa using hlen) hcells hend).trans fun u3 hu3 => (hu3.validating hbits).validate hbits
  have hnow : s.env.now + s.cfg.tStartLow + s.cfg.tStartHigh + trainTicks ((h0, h1) :: (h2, h3) :: cells) =
      s.env.now +
        (s.cfg.tStartLow + s.cfg.tStartHigh + trainTicks [(h0, h1), (h2, h3)] + trainTicks cells) := by
    rw [htrain, trainTicks_append]
    omega
  rw [hnow]
  exact hdecoded

end Sys2Proof.Proofs
end

section
/-! PROOFS. The steps of the remote protocol (44_irremote.md): its operations at their acceptance; one poll of an
interval; and the two checks of a received frame. -/

namespace Sys2Proof.Proofs

open Sys2Proof Sys2Proof.Machine Sys2Proof.Laws

/-! ### The operations (R121 to R123, R125, R126, R131, R132) -/

/-- Settles O38: the recorded start and the sampled count are written out in the operation's definition. -/
theorem irEdgeRecordsTheStart : Obligations.IrEdgeRecordsTheStart := fun _ => rfl

/-- Settles O45: each read is a response of the state with `ir_unread` cleared. -/
theorem irReadsClearUnread : Obligations.IrReadsClearUnread := fun _ => ⟨rfl, rfl⟩

theorem available_iff (s : State) : available s = true ↔ s.irState = .startDetected := decide_eq_true_iff

/-- Settles O39: `ir_state` is written where a start is recorded, and kept elsewhere. -/
theorem irClrEdgeWithdrawsTheStart : Obligations.IrClrEdgeWithdrawsTheStart := by
  intro s
  have hflag := available_iff s
  change Host.Outcome.next (respond ackResponse (if available s = true then { s with irState := .idle } else s)) = _
  by_cases hi : s.irState = .startDetected
  · rw [if_pos (hflag.mpr hi), if_pos hi]
    rfl
  · rw [if_neg (mt hflag.mp hi), if_neg hi]
    rfl

/-- Settles O40: the operation only presents the flag. -/
theorem irAvailAnswersTheFlag : Obligations.IrAvailAnswersTheFlag := by
  intro s
  change Host.Outcome.next (respond (bitResponse (decide (s.irState = .startDetected))) s) = _
  rw [bitResponse_decide]
  rfl

/-- The state in which `IR_WAIT`, accepted in `s`, measures the mark of interval 0. -/
def intervalsArmed (s : State) : State :=
  { s with
    busy := true, irState := .sampleLow 0, frameLen := 32, frameWr := 0
    cnt := 0, limit := s.cfg.maxTicks, rsp := .quiet }

theorem exec_irWait {s : State} (h : s.irState = .startDetected) : exec .irWait s = .next (intervalsArmed s) :=
  congrArg Host.Outcome.next (if_pos ((available_iff s).mpr h))

theorem exec_irWait_refused {s : State} (h : s.irState ≠ .startDetected) : exec .irWait s = .next (refuse s) :=
  congrArg Host.Outcome.next (if_neg (mt (available_iff s).mp h))

/-- Settles O41: a start is recorded or the operation is refused. -/
theorem irWaitNeedsARecordedStart : Obligations.IrWaitNeedsARecordedStart :=
  fun _ => ⟨exec_irWait, exec_irWait_refused⟩

/-! ### One poll of an interval (R124) -/

/-- Settles O42: mark and space are spans; the end of the space stores the bit. -/
theorem irIntervalStoresItsBit : Obligations.IrIntervalStoresItsBit := by
  intro s n hrst hbusy hd hcnt
  have hread (p : Nat) :=
    readBit_writeBit s.frame n.val p (classify s.cnt s.cfg.threshIr) (n.isLt.trans (by decide))
  have hbit := (hread n.val).trans (if_pos rfl)
  have hothers (p : Nat) (hp : p ≠ n.val) := (hread p).trans (if_neg hp)
  refine ⟨fun hholds => ?_, fun hi hline => ?_, fun hi hline => ?_⟩
  · have htick : step s = .next (letTickPass s) := by
      rcases hholds with ⟨hi, hline⟩ | ⟨hi, hline⟩
      · exact (Span.mark n hd hi).step_running hrst hbusy hcnt hline
      · exact (Span.space n hd hi).step_running hrst hbusy hcnt hline
    rw [htick, letTickPass_of_lt hcnt]
    rfl
  · exact (Span.mark n hd hi).step_ended hrst hbusy hcnt (by simp [protocolLine, hline])
  · refine ⟨_, (Span.space n hd hi).step_ended hrst hbusy hcnt (by simp [protocolLine, hline]), ?_⟩
    obtain ⟨hn, e⟩ | ⟨hn, e⟩ := irNextInterval_cases n
        (storeBit n.val (classify s.cnt s.cfg.threshIr) (noResponse s)) <;> rw [e]
    · have harmed (m : Fin 32) (hm : m.val = n.val + 1) : IrState.sampleLow ⟨n.val + 1, hn⟩ = .sampleLow m :=
        congrArg _ (Fin.ext hm.symm)
      exact ⟨rfl, hbit, hothers, fun m hm => ⟨harmed m hm, rfl, rfl⟩, fun hlast => by omega⟩
    · exact ⟨rfl, hbit, hothers, fun m hm => by omega, fun _ => ⟨rfl, rfl, rfl⟩⟩

/-! ### The two checks (R127 to R129) -/

/-- The state to which `Validating` takes `s`, of whose frame the windows are `c`. -/
def irChecked (c : RemoteCommand) (s : State) : State :=
  if c.addr = 0xFF then raiseStatus .ir .checksumError s
  else if s.irUnread then raiseStatus .ir .overwriteError s
  else irDone c s

theorem step_irValidating {s : State} {c : RemoteCommand} (hrst : rstNow s.env = false) (hbusy : s.busy = true)
    (hd : s.dhtState.resting = true) (hi : s.irState = .validating) (hc : s.frame.remoteCommand s.irOffset = .ok c) :
    step s = .next (irChecked c s) := by
  simp only [step_engine s hrst hbusy, engineStep_eq_irStep hd, irStep, hi, irValidate, hc, irChecked]

section
variable {c : RemoteCommand} {s : State}

theorem irChecked_checksumError (ha : c.addr = 0xFF) : irChecked c s = raiseStatus .ir .checksumError s := if_pos ha

theorem irChecked_overwriteError (ha : c.addr ≠ 0xFF) (hu : s.irUnread = true) :
    irChecked c s = raiseStatus .ir .overwriteError s := (if_neg ha).trans (if_pos hu)

theorem irChecked_ok (ha : c.addr ≠ 0xFF) (hu : s.irUnread = false) : irChecked c s = irDone c s :=
  (if_neg ha).trans (if_neg (by simp [hu]))

end

theorem addressWindow_eq_pack8 (m : Memory) (offset : Bool) :
    m.addressWindow offset = m.pack8 (if offset then 1 else 0) := by
  cases offset <;> rfl

/-- The command window, from the positions the offset selects (20_memory.md R46). -/
theorem commandWindow_of_reads {m : Memory} {offset : Bool} {cmd : Byte}
    (h : if offset then ∃ v, m.read 17 7 = .ok v ∧ cmd.toNat = 2 * v else m.pack8 16 = .ok cmd) :
    m.commandWindow offset = .ok cmd := by
  cases offset with
  | false => exact h
  | true =>
    obtain ⟨v, hv, hcmd⟩ := h
    simp only [Memory.commandWindow, if_true, hv, ← hcmd, BitVec.ofNat_toNat, BitVec.setWidth_eq]

/-- Settles O43: the command is that of the two windows, and its checks have three outcomes. -/
theorem irValidationOrdersItsChecks : Obligations.IrValidationOrdersItsChecks := by
  intro s addr cmd hrst hbusy hd hi haddr hcmd
  rw [← addressWindow_eq_pack8] at haddr
  rw [step_irValidating hrst hbusy hd hi (remoteCommand_of_windows haddr (commandWindow_of_reads hcmd))]
  refine ⟨fun ha => ?_, fun ha hu => ?_, fun ha hu => ?_⟩
  · exact congrArg Host.Outcome.next (irChecked_checksumError ha)
  · exact congrArg Host.Outcome.next (irChecked_overwriteError ha hu)
  · exact congrArg Host.Outcome.next (irChecked_ok ha hu)

end Sys2Proof.Proofs
end

section
/-! PROOFS. `IR_WAIT` as a whole (44_irremote.md R124 to R129): a span of listed levels, one interval, a train of
intervals, and the received frame. -/

namespace Sys2Proof.Proofs

open Sys2Proof Sys2Proof.Machine Sys2Proof.Laws

/-! ### `IR_WAIT` on the way through a pulse train -/

/-- `t` has the stored command, `ir_unread` and `ir_offset` of `s`. -/
def keepsIrRegisters (s t : State) : Prop :=
  t.irAddr = s.irAddr ∧ t.irCmd = s.irCmd ∧ t.irUnread = s.irUnread ∧ t.irOffset = s.irOffset

/-- In `v` the `IR_WAIT` begun in `s` is running, `ticks` ticks after its beginning: the positions of the frame hold
`bits`, the line lists `wave` from here on, and the registers of the command are those of `s`. -/
structure Receiving (s : State) (bits : List Bool) (ticks : Nat) (wave : List Bool) (v : State) : Prop where
  runs : EngineRuns v
  sensor_rests : v.dhtState.resting = true
  cfg_eq : v.cfg = s.cfg
  keeps : keepsIrRegisters s v
  limit_eq : v.limit = s.cfg.maxTicks
  holds : holdsBits v.frame bits
  now_eq : v.env.now = s.env.now + ticks
  wave_eq : v.env.irWave = wave

/-- The value of `ir_state` with `n` bits stored (R120). -/
def intervalState (n : Nat) : IrState := if h : n < 32 then .sampleLow ⟨n, h⟩ else .validating

theorem intervalState_of_lt {n : Nat} (h : n < 32) : intervalState n = .sampleLow ⟨n, h⟩ := dif_pos h

theorem intervalState_last : intervalState 32 = .validating := rfl

/-- `bits` are stored, and the engine has just armed the mark of the next interval or, with 32 bits, validates. -/
structure AtInterval (s : State) (bits : List Bool) (ticks : Nat) (wave : List Bool) (v : State) : Prop
    extends Receiving s bits ticks wave v where
  irState_eq : v.irState = intervalState bits.length
  cnt_eq : bits.length < 32 → v.cnt = 0

section
variable {s v : State} {bits : List Bool} {ticks : Nat} {wave : List Bool}

theorem Receiving.stateAfter {n : Nat} {level : Bool} (h : Receiving s bits ticks (List.replicate n level ++ wave) v) :
    Receiving s bits (ticks + n) wave (stateAfter n v) :=
  { h with
    runs := h.runs.stateAfter n
    now_eq := by
      change v.env.now + n = _
      rw [h.now_eq, Nat.add_assoc]
    wave_eq := by
      change v.env.irWave.drop n = _
      rw [h.wave_eq, List.drop_left' List.length_replicate] }

theorem Receiving.noResponse (h : Receiving s bits ticks wave v) : Receiving s bits ticks wave (noResponse v) :=
  { h with runs := { h.runs with quiet := rfl } }

theorem Receiving.arm (h : Receiving s bits ticks wave v) (i : IrState) :
    Receiving s bits ticks wave (armFull { v with irState := i }) :=
  { h with
    runs := { h.runs with }
    limit_eq := congrArg Config.maxTicks h.cfg_eq }

theorem Receiving.store (h : Receiving s bits ticks wave v) (b : Bool) (hroom : bits.length < 32) :
    Receiving s (bits ++ [b]) ticks wave (storeBit bits.length b v) :=
  { h with
    runs := { h.runs with }
    holds := holdsBits_writeBit b h.holds (hroom.trans (by decide)) }

/-- With the bit of interval `i` stored, the next interval is armed or the frame is validated. -/
theorem Receiving.nextInterval {i : Fin 32} (h : Receiving s bits ticks wave v) (hi : i.val + 1 = bits.length) :
    AtInterval s bits ticks wave (irNextInterval i v) := by
  obtain ⟨hn, e⟩ | ⟨hn, e⟩ := irNextInterval_cases i v <;> rw [e]
  · exact { h.arm _ with
      irState_eq := by rw [← hi, intervalState_of_lt hn]; rfl
      cnt_eq := fun _ => rfl }
  · have hlen : bits.length = 32 := hi.symm.trans hn
    exact { h with
      runs := { h.runs with }
      irState_eq := by rw [hlen, intervalState_last]
      cnt_eq := fun hlt => absurd hlen hlt.ne }

/-- A span shorter than full scale is measured to its end. -/
theorem Receiving.runSteps_ended {n : Nat} {level : Bool} {t : State}
    (h : Receiving s bits ticks (List.replicate n level ++ wave) v) (hcnt : v.cnt = 0)
    (hspan : Span (Machine.stateAfter n v) .ir level t) (hn : n < s.cfg.maxTicks)
    (hwave : wave.head? = some (!level)) : runSteps (n + 1) v = .next t :=
  hspan.runSteps_ended h.runs (by rwa [h.limit_eq, hcnt]) (isRun_of_wave h.wave_eq hwave)

/-- A space is measured, and its bit is stored behind the others (R124). -/
theorem Receiving.space {n : Nat} (hroom : bits.length < 32)
    (h : Receiving s bits ticks (List.replicate n true ++ wave) v)
    (hi : v.irState = .sampleHigh ⟨bits.length, hroom⟩) (hcnt : v.cnt = 0) (hn : n < s.cfg.maxTicks)
    (hwave : wave.head? = some false) :
    Leads v (AtInterval s (bits ++ [decide (s.cfg.threshIr < n)]) (ticks + n) wave) := by
  have hafter := h.stateAfter
  have hcount : (Machine.stateAfter n v).cnt = n := by
    change countAfter n v = n
    rw [countAfter_of_le (by rw [h.limit_eq, hcnt]; exact hn.le), hcnt, Nat.zero_add]
  refine leads_of_run (h.runSteps_ended hcnt (.space _ hafter.sensor_rests hi) hn hwave) ?_
  rw [hcount, hafter.cfg_eq]
  exact (hafter.noResponse.store _ hroom).nextInterval (by rw [List.length_append, List.length_singleton])

/-- An interval: its mark, whose count is discarded, and its space last their ticks and leave one bit (R124). -/
theorem AtInterval.interval {lo hi : Nat} (hroom : bits.length < 32)
    (h : AtInterval s bits ticks (List.replicate lo false ++ (List.replicate hi true ++ wave)) v)
    (hlo : lo < s.cfg.maxTicks) (hpos : 1 ≤ hi) (hhi : hi < s.cfg.maxTicks) (hwave : wave.head? = some false) :
    Leads v (AtInterval s (bits ++ [decide (s.cfg.threshIr < hi)]) (ticks + (lo + hi)) wave) := by
  have hafter := h.toReceiving.stateAfter
  have hmark := h.toReceiving.runSteps_ended (h.cnt_eq hroom)
    (.mark ⟨bits.length, hroom⟩ hafter.sensor_rests (h.irState_eq.trans (intervalState_of_lt hroom))) hlo
    (head?_replicate_append hpos)
  rw [← Nat.add_assoc]
  obtain ⟨n, u, hrun, hu⟩ := (hafter.noResponse.arm _).space hroom rfl rfl hhi hwave
  exact leads_of_run ((runSteps_add hmark n).trans hrun) hu

end

/-! ### A pulse train -/

/-- An interval whose mark may have no length: its space has one, and both are shorter than full scale. -/
def receivable (c : Config) (cell : Nat × Nat) : Prop := cell.1 < c.maxTicks ∧ 1 ≤ cell.2 ∧ cell.2 < c.maxTicks

/-- The intervals are received one after the other, by induction on those still to come; only the first mark may have
no length (R124). -/
theorem AtInterval.train {s v : State} {bits : List Bool} {ticks : Nat} {wave : List Bool} {cells : List (Nat × Nat)}
    (h : AtInterval s bits ticks (trainLevels cells ++ wave) v) (hlen : bits.length + cells.length = 32)
    (hcells : ∀ cell ∈ cells, receivable s.cfg cell) (hmarks : ∀ cell ∈ cells.tail, 1 ≤ cell.1)
    (hwave : wave.head? = some false) :
    Leads v (AtInterval s (bits ++ trainBits s.cfg.threshIr cells) (ticks + trainTicks cells) wave) := by
  induction cells generalizing bits ticks v with
  | nil => exact leads_self (by simpa [trainLevels, trainBits, trainTicks] using h)
  | cons cell cells ih =>
    obtain ⟨hlow, hpos, hhigh⟩ := hcells cell List.mem_cons_self
    have hrest : ∀ c ∈ cells, receivable s.cfg c := fun c hc => hcells c (List.mem_cons_of_mem _ hc)
    have hnext : (trainLevels cells ++ wave).head? = some false :=
      head?_trainLevels_append (fun c hc => ⟨hmarks c hc, hrest c hc⟩) hwave
    rw [List.length_cons] at hlen
    rw [trainLevels_cons_append] at h
    refine (h.interval (by omega) hlow hpos hhigh hnext).trans fun u hu => ?_
    have htrain := ih hu (by rw [List.length_append, List.length_singleton]; omega) hrest
      fun c hc => hmarks c (List.mem_of_mem_tail hc)
    rwa [List.append_assoc, List.singleton_append, Nat.add_assoc, ← trainTicks_cons] at htrain

/-! ### The received frame (R127 to R129) -/

/-- The command of a frame that holds `bits` (20_memory.md R46). -/
def commandOf (bits : List Bool) (offset : Bool) : RemoteCommand :=
  ⟨windowByte bits (if offset then 1 else 0), windowCommand bits offset⟩

theorem commandWindow_of_holdsBits {m : Memory} {bits : List Bool} (h : holdsBits m bits) (hlen : bits.length = 32)
    (offset : Bool) : m.commandWindow offset = .ok (windowCommand bits offset) := by
  cases offset with
  | false => exact pack8_of_holdsBits (start := 16) h (by omega)
  | true =>
    have hread := read_of_holdsBits (p := 17) (n := 7) h (by omega)
    simp only [Memory.commandWindow, windowCommand, if_true, hread]

theorem remoteCommand_of_holdsBits {m : Memory} {bits : List Bool} (h : holdsBits m bits) (hlen : bits.length = 32)
    (offset : Bool) : m.remoteCommand offset = .ok (commandOf bits offset) := by
  refine remoteCommand_of_windows ?_ (commandWindow_of_holdsBits h hlen offset)
  have hin : (if offset then 1 else 0) + 8 ≤ bits.length := by split_ifs <;> omega
  rw [addressWindow_eq_pack8]
  exact pack8_of_holdsBits h hin

/-- In `u` the `IR_WAIT` begun in `s` has returned after `ticks` ticks with the command `c`: by the address and by
`ir_unread`, `ChecksumError` or `OverwriteError` with the registers of `s` kept, or `Ok` with `c` stored. -/
def Received (s : State) (c : RemoteCommand) (ticks : Nat) (u : State) : Prop :=
  u.busy = false ∧ u.env.now = s.env.now + ticks ∧ u.frameLen = 0 ∧ u.frameWr = 0 ∧ u.limit = s.cfg.maxTicks ∧
    (c.addr = 0xFF → u.irState = .failed ∧ u.rsp = ⟨true, 0, false, .checksumError, false⟩ ∧
      u.irAddr = s.irAddr ∧ u.irCmd = s.irCmd ∧ u.irUnread = s.irUnread ∧ u.irOffset = s.irOffset) ∧
    (c.addr ≠ 0xFF → s.irUnread = true →
      u.irState = .failed ∧ u.rsp = ⟨true, 0, false, .overwriteError, false⟩ ∧
      u.irAddr = s.irAddr ∧ u.irCmd = s.irCmd ∧ u.irUnread = true ∧ u.irOffset = s.irOffset) ∧
    (c.addr ≠ 0xFF → s.irUnread = false →
      u.irState = .done ∧ u.rsp = ⟨true, 0, false, .ok, false⟩ ∧
      u.irAddr = c.addr ∧ u.irCmd = c.cmd ∧ u.irUnread = true ∧ u.irOffset = true)

/-- Each outcome of the checks returns the operation in no tick and discards the frame. -/
theorem irChecked_returns (c : RemoteCommand) (s : State) :
    (irChecked c s).busy = false ∧ (irChecked c s).env = s.env ∧ (irChecked c s).frameLen = 0 ∧
      (irChecked c s).frameWr = 0 ∧ (irChecked c s).limit = s.limit := by
  unfold irChecked
  split_ifs <;> exact ⟨rfl, rfl, rfl, rfl, rfl⟩

section
variable {s v : State} {bits : List Bool} {ticks : Nat} {wave : List Bool}

theorem Receiving.received_irChecked (h : Receiving s bits ticks wave v) (c : RemoteCommand) :
    Received s c ticks (irChecked c v) := by
  obtain ⟨hbusy, henv, hlen, hwr, hlimit⟩ := irChecked_returns c v
  obtain ⟨haddr, hcmd, hunread, hoffset⟩ := h.keeps
  refine ⟨hbusy, henv ▸ h.now_eq, hlen, hwr, hlimit.trans h.limit_eq,
    fun ha => ?_, fun ha hu => ?_, fun ha hu => ?_⟩
  · rw [irChecked_checksumError ha]
    exact ⟨rfl, rfl, haddr, hcmd, hunread, hoffset⟩
  · rw [irChecked_overwriteError ha (hunread.trans hu)]
    exact ⟨rfl, rfl, haddr, hcmd, hunread.trans hu, hoffset⟩
  · rw [irChecked_ok ha (hunread.trans hu)]
    exact ⟨rfl, rfl, rfl, rfl, rfl, rfl⟩

/-- With 32 bits received the checks return the operation. -/
theorem AtInterval.validate (h : AtInterval s bits ticks wave v) (hlen : bits.length = 32) :
    Leads v (Received s (commandOf bits s.irOffset) ticks) := by
  obtain ⟨-, -, -, hoffset⟩ := h.keeps
  have hi : v.irState = .validating := by rw [h.irState_eq, hlen, intervalState_last]
  have hstep := step_irValidating h.runs.rstNow_eq h.runs.busy_eq h.sensor_rests hi
    (remoteCommand_of_holdsBits h.holds hlen v.irOffset)
  rw [hoffset] at hstep
  exact leads_of_run (runSteps_snoc (n := 0) rfl hstep) (h.received_irChecked _)

end

/-! ### The whole of `IR_WAIT` -/

theorem atInterval_intervalsArmed {s : State} {wave : List Bool} (hrst : noReset s.env)
    (hd : s.dhtState.resting = true) (hwave : s.env.irWave = wave) : AtInterval s [] 0 wave (intervalsArmed s) where
  runs := ⟨rfl, hrst, rfl⟩
  sensor_rests := hd
  cfg_eq := rfl
  keeps := ⟨rfl, rfl, rfl, rfl⟩
  limit_eq := rfl
  holds _ hi := absurd hi (Nat.not_lt_zero _)
  now_eq := rfl
  wave_eq := hwave
  irState_eq := rfl
  cnt_eq _ := rfl

/-- Settles O44: acceptance, intervals and checks, one after the other. -/
theorem irWaitDecodesPulseTrain : Obligations.IrWaitDecodesPulseTrain := by
  rintro s t cells rest _ _ hrst hd hstart hlen hcells hmarks hwave rfl rfl hexec
  rw [exec_irWait hstart, Host.Outcome.next.injEq] at hexec
  subst hexec
  have hbits : (trainBits s.cfg.threshIr cells).length = 32 := by rw [trainBits, List.length_map, hlen]
  have htrain := (atInterval_intervalsArmed hrst hd hwave).train (by simpa using hlen) hcells hmarks rfl
  rw [Nat.zero_add, List.nil_append] at htrain
  exact htrain.trans fun _ hu => hu.validate hbits

end Sys2Proof.Proofs
end

section
/-! PROOFS. Error statuses and their causes (60_exceptions.md R140, R144): what makes an acquisition raise a status,
what of the state the raising writes, and that no other step presents an error. -/

namespace Sys2Proof.Proofs

open Sys2Proof Sys2Proof.Machine Sys2Proof.Laws

/-! ### What an acquisition raises, and why -/

/-- `Cause s p st`: in `s` the acquisition of `p` has the reason of 60_exceptions.md R140 to raise the status `st`. -/
inductive Cause (s : State) : Protocol → Status → Prop where
  | timeout {p : Protocol} {level : Bool} {u : State} (span : Span s p level u) (h : s.limit ≤ s.cnt) :
      Cause s p .timeoutError
  | sumDiffers (k : SensorPacket) (d : s.dhtState = .validating) (f : s.frame.sensorPacket = .ok k)
      (c : k.temp + k.hum ≠ k.par) : Cause s .dht .checksumError
  | allOnes (c : RemoteCommand) (d : s.dhtState.resting = true) (i : s.irState = .validating)
      (f : s.frame.remoteCommand s.irOffset = .ok c) (a : c.addr = 0xFF) : Cause s .ir .checksumError
  | unread (c : RemoteCommand) (d : s.dhtState.resting = true) (i : s.irState = .validating)
      (f : s.frame.remoteCommand s.irOffset = .ok c) (a : c.addr ≠ 0xFF) (u : s.irUnread = true) :
      Cause s .ir .overwriteError

/-- The transition from `s` to `t` raises an error status for its cause. -/
def Raises (s t : State) : Prop := ∃ p st, Cause s p st ∧ t = raiseStatus p st s

theorem move_status_ok_or_raises {s t : State} (h : Move s t) : t.rsp.status = .ok ∨ Raises s t := by
  cases h with
  | awaitTimeout p d h => exact .inr ⟨_, _, .timeout (.phase p d) h, rfl⟩
  | cellLowTimeout n d h => exact .inr ⟨_, _, .timeout (.separator n d) h, rfl⟩
  | cellHighTimeout n d h => exact .inr ⟨_, _, .timeout (.highSpan n d) h, rfl⟩
  | markTimeout n d i h => exact .inr ⟨_, _, .timeout (.mark n d i) h, rfl⟩
  | spaceTimeout n d i h => exact .inr ⟨_, _, .timeout (.space n d i) h, rfl⟩
  | sumBad k d f c => exact .inr ⟨_, _, .sumDiffers k d f c, rfl⟩
  | allOnes c d i f a => exact .inr ⟨_, _, .allOnes c d i f a, rfl⟩
  | overwrite c d i f a u => exact .inr ⟨_, _, .unread c d i f a u, rfl⟩
  | cellHighEnd => rw [dhtNextCell_frame]; exact .inl rfl
  | spaceEnd => rw [irNextInterval_frame]; exact .inl rfl
  | _ => exact .inl rfl

/-- An operation has no error status at its acceptance: it answers `Ok`, is refused or closes the port. -/
theorem Accepted.status_ok {s t : State} {i : Instr} (h : Accepted s i t) : t.rsp.status = .ok := by
  cases h <;> rfl

/-- A step that presents an error is the engine's, and raises it. -/
theorem step_raises {s t : State} (hrst : rstNow s.env = false) (hstep : step s = .next t)
    (herror : t.rsp.status ≠ .ok) : s.busy = true ∧ Raises s t := by
  rcases step_cases s t hstep with ⟨hrst', -⟩ | ⟨-, hb, hengine⟩ | ⟨-, -, rest, rfl, -⟩ |
    ⟨-, -, w, a, b, rest, i, -, -, hexec⟩ | ⟨-, -, w, a, b, rest, e, -, -, rfl⟩
  · simp [hrst] at hrst'
  · exact ⟨hb, (move_status_ok_or_raises (engineStep_move s t hengine)).resolve_left herror⟩
  · exact absurd rfl herror
  · exact absurd (exec_accepted hexec).status_ok herror
  · exact absurd rfl herror

/-! ### What a cause says of the state -/

/-- The acquisition that measures a span is the one that runs: that of the remote when `dht_state` rests. -/
theorem Span.running {s t : State} {p : Protocol} {level : Bool} (h : Span s p level t) :
    p = .dht ∧ s.dhtState.resting = false ∨ p = .ir ∧ s.dhtState.resting = true := by
  cases h with
  | phase _ d | separator _ d | highSpan _ d => exact .inl ⟨rfl, by rw [d]; rfl⟩
  | mark _ d | space _ d => exact .inr ⟨rfl, d⟩

/-- The acquisition that raises is the one that runs. -/
theorem Cause.running {s : State} {p : Protocol} {st : Status} (h : Cause s p st) :
    p = .dht ∧ s.dhtState.resting = false ∨ p = .ir ∧ s.dhtState.resting = true := by
  cases h with
  | timeout hspan => exact hspan.running
  | sumDiffers k d => exact .inl ⟨rfl, by rw [d]; rfl⟩
  | allOnes c d | unread c d => exact .inr ⟨rfl, d⟩

/-- The measuring states of the two protocols. -/
theorem Span.states {s t : State} {p : Protocol} {level : Bool} (h : Span s p level t) :
    (∃ p, s.dhtState = .await p) ∨ (∃ n, s.dhtState = .sampleLow n) ∨ (∃ n, s.dhtState = .sampleHigh n) ∨
      s.dhtState.resting = true ∧ ((∃ n, s.irState = .sampleLow n) ∨ ∃ n, s.irState = .sampleHigh n) := by
  cases h with
  | phase p d => exact .inl ⟨p, d⟩
  | separator n d => exact .inr (.inl ⟨n, d⟩)
  | highSpan n d => exact .inr (.inr (.inl ⟨n, d⟩))
  | mark n d i => exact .inr (.inr (.inr ⟨d, .inl ⟨n, i⟩⟩))
  | space n d i => exact .inr (.inr (.inr ⟨d, .inr ⟨n, i⟩⟩))

/-! ### What raising a status writes (R141) -/

theorem raiseStatus_discardsFrame (p : Protocol) (st : Status) (s : State) :
    (raiseStatus p st s).frameLen = 0 ∧ (raiseStatus p st s).frameWr = 0 := by
  cases p <;> exact ⟨rfl, rfl⟩

/-- The protocol that goes to `Failed` is the one whose acquisition runs. -/
theorem Cause.failed {s : State} {p : Protocol} {st : Status} (h : Cause s p st) :
    (s.dhtState.resting = false → (raiseStatus p st s).dhtState = .failed) ∧
      (s.dhtState.resting = true → (raiseStatus p st s).irState = .failed) := by
  rcases h.running with ⟨rfl, hd⟩ | ⟨rfl, hd⟩
  · exact ⟨fun _ => rfl, fun hrests => by simp [hd] at hrests⟩
  · exact ⟨fun hruns => by simp [hd] at hruns, fun _ => rfl⟩

/-- Settles O49: the step raises the status, and each status has the causes that `Cause` lists for it. -/
theorem errorStatusHasItsCause : Obligations.ErrorStatusHasItsCause := by
  intro s t hrst hstep herror
  obtain ⟨hbusy, p, st, hcause, rfl⟩ := step_raises hrst hstep herror
  obtain ⟨hlen, hwr⟩ := raiseStatus_discardsFrame p st s
  obtain ⟨hdht, hir⟩ := hcause.failed
  have hstatus : (raiseStatus p st s).rsp.status = st := rfl
  rw [hstatus]
  refine ⟨hbusy, rfl, rfl, hlen, hwr, hdht, hir, ?_, ?_, ?_⟩ <;> rintro rfl
  · cases hcause with
    | timeout hspan hcnt => exact ⟨hcnt, hspan.states⟩
  · cases hcause with
    | sumDiffers k d f c => exact .inl ⟨d, k, f, c⟩
    | allOnes c d i f a => exact .inr ⟨d, i, c, f, a⟩
  · cases hcause with
    | unread c d i f a u => exact ⟨d, i, u, c, f, a⟩

end Sys2Proof.Proofs
end

section
/-! PROOFS. Reset (70_reset_and_hazards.md R155, R156): the registers after a tick with `rst = 1`, and the invariant of
the state after reset. -/

namespace Sys2Proof.Proofs

open Sys2Proof Sys2Proof.Machine Sys2Proof.Laws

/-- After reset the counter runs: the full scale of a legal instance is at least 1, so a count of 0 is below it. -/
theorem expired_applyReset (s : State) : expired (applyReset s) = false :=
  decide_eq_false (Nat.not_le_of_lt (maxTicks_pos s.cfg))

/-- Settles O11: the step is the reset, which writes the values of R156 whatever the state held. -/
theorem resetTakesEveryRegister : Obligations.ResetTakesEveryRegister := by
  intro s hrst
  refine ⟨applyReset s, step_reset s hrst, rfl, rfl, rfl, expired_applyReset s, ?_⟩
  exact ⟨rfl, rfl, rfl, rfl, rfl, rfl, rfl, rfl, rfl, rfl, rfl, rfl, rfl, rfl, rfl, rfl, rfl, rfl⟩

/-- Settles O51: `State.reset` is the reset state of one legal instance. -/
theorem resetMeetsInvariant : Obligations.ResetMeetsInvariant :=
  ⟨resetOf_inv, resetOf_inv Config.chosen⟩

end Sys2Proof.Proofs
end
